-- ==== Sys2Proof/Word.lean ====
section
/-! DEFINITION. The words of the machine: widths of registers, bytes and operand fields (spec/00_scope.md R7, R8). -/

namespace Sys2Proof

/-- A double-word, the width of a general register, a floating-point register, hi, lo and pc (R7). -/
abbrev Word := BitVec 64

/-- A memory byte (R60). -/
abbrev Byte := BitVec 8

/-- A general register number, 0 to 31 (R30). -/
abbrev Reg := BitVec 5

/-- A floating-point register number, 0 to 31 (R37). -/
abbrev FReg := BitVec 5

/-- A coprocessor-0 register number, 0 to 31 (R39). -/
abbrev CReg := BitVec 5

/-- A condition code number, 0 to 7 (R36). -/
abbrev Cc := BitVec 3

/-- A 16-bit immediate or offset (R95). -/
abbrev Imm := BitVec 16

/-- The 5-bit shift amount of the immediate shifts (R96). -/
abbrev Shamt := BitVec 5

/-- The 26-bit jump field (R97). -/
abbrev JField := BitVec 26

/-- The 20-bit code field of TRAP (R111). -/
abbrev TrapCode := BitVec 20

/-- An instruction word (R90). -/
abbrev IWord := BitVec 32

end Sys2Proof
end

