-- ==== Sys2Proof/Config.lean ====
section
/-! DEFINITION. What an implementation fixes (the parameters of spec/00_scope.md R8) and the free values
(`any` of spec/00_scope.md R13, "under no law" of spec/47_floating_point.md R224). -/

namespace Sys2Proof

/-- `ENDIAN` (R63). -/
inductive Endian where
  | big
  | little
  deriving DecidableEq, Repr

/-- `MADD_MODE`, the two readings of MADD (R148). -/
inductive MaddMode where
  | mips32
  | wide128
  deriving DecidableEq, Repr

/-- `FP.rm`, the rounding mode (R222). -/
inductive RoundMode where
  | nearestEven
  | towardZero
  | towardPlusInf
  | towardMinusInf
  deriving DecidableEq, Repr

/-- The arithmetic functions of the numerics record `FP` (R222, U29): those of the default record, or those of any other
record, which is known by a number only and has the opaque functions `Config.otherFunction` (DESIGN CHOICE, safe: log 30). -/
inductive FpFunctions where
  | ieee
  | other (record : Nat)
  deriving DecidableEq, Repr

/-- The numerics record `FP` (R222): its functions and its mode fields, with the defaults. `flushOperands` says whether
`flush` replaces denormal operands as well as denormal results, which R222 leaves to the implementation
(DESIGN CHOICE, safe: log 8). -/
structure FpRecord where
  functions : FpFunctions := .ieee
  rm : RoundMode := .nearestEven
  flush : Bool := false
  flushOperands : Bool := false
  fused : Bool := false
  deriving DecidableEq, Repr

/-- The addresses `first` to `last`, both included. -/
structure Region where
  first : Word
  last : Word
  deriving DecidableEq, Repr

/-- The parameters of R8 that stay fixed for a run. `backed` and `userAccessible` hold the predicates `Backed` (R61) and
`UserAccessible` (R74) as finite lists of regions, which loses no predicate on 64-bit addresses. `endPc` is `END_PC`
(R333), `none` where no launch gave one (DESIGN CHOICE, safe: log 1). -/
structure Params where
  delaySlot : Bool
  endian : Endian
  backed : List Region
  userAccessible : List Region
  maddMode : MaddMode
  fp : FpRecord
  excVector : Word
  hostTraps : Bool
  endPc : Option Word
  deriving DecidableEq, Repr

/-- The functions of the numerics record `FP`, by their names in R222. -/
inductive FpOp where
  | addS | subS | mulS | divS | fmaS
  | addD | subD | mulD | divD | fmaD
  | cvtSD | cvtSW | cvtSL | cvtDS | cvtDW | cvtDL
  | cvtWS | cvtWD | cvtLS | cvtLD
  deriving DecidableEq, Repr

/-- The n-th value that no rule determines (`any64`, `any32`, `any8`, `any1` of R13). It has no body, so nothing can be
proved of it (DESIGN CHOICE, safe: log 4). -/
opaque Config.freeWord : Nat → Word

/-- The bits of a NaN result and of an out-of-range conversion: "under no law", but fixed by the operands and the record
(R222, R224). It has no body (DESIGN CHOICE, safe: log 6). -/
opaque Config.underNoLaw : FpRecord → FpOp → List Word → Word

/-- The functions of a record `FP` that is not the default one: each total, and of its operands and the record alone (R222).
It has no body, so nothing can be proved of them (DESIGN CHOICE, safe: log 30). -/
opaque Config.otherFunction : FpRecord → FpOp → List Word → Word

/-- `RESET_PC`, at the default of R330. -/
def Config.resetPc : Word := 0xFFFFFFFFBFC00000

/-- Every address. -/
def Config.everywhere : List Region := [⟨0, 0xFFFFFFFFFFFFFFFF⟩]

/-- The parameters of `State.reset`: the defaults of spec/92_eei_decisions.md where it gives one; for `DELAY_SLOT`,
`ENDIAN`, `Backed`, `HOST_TRAPS` and `END_PC`, which have none, a choice (DESIGN CHOICE, unsafe: log 2). -/
def Config.defaults : Params where
  delaySlot := false
  endian := .big
  backed := Config.everywhere
  userAccessible := Config.everywhere
  maddMode := .mips32
  fp := {}
  excVector := 0xFFFFFFFF80000180
  hostTraps := false
  endPc := none

end Sys2Proof
end

