-- ==== Sys2Proof/Syntax.lean ====
section
/-! DEFINITION. The instructions of spec/30_encoding.md R100, one constructor per row of spec/opcode_table.json,
with the operands of R109 in the card's order. The operand names are the card's roles (R11), not the binary fields. -/

namespace Sys2Proof

/-- The 109 instructions of the card (R100). `Cc` is the condition code operand, 0 where assembly text omits it (R99).
TRAP keeps its 20-bit code field, which the card does not have and the meaning ignores (R111). -/
inductive Instr where
  -- load-store (spec/40_load_store.md)
  /-- `LB RD, offset(RS)` (R121). -/
  | lb (rd : Reg) (offset : Imm) (rs : Reg)
  /-- `LBU RD, offset(RS)` (R122). -/
  | lbu (rd : Reg) (offset : Imm) (rs : Reg)
  /-- `LH RD, offset(RS)` (R123). -/
  | lh (rd : Reg) (offset : Imm) (rs : Reg)
  /-- `LHU RD, offset(RS)` (R124). -/
  | lhu (rd : Reg) (offset : Imm) (rs : Reg)
  /-- `LW RD, offset(RS)` (R125). -/
  | lw (rd : Reg) (offset : Imm) (rs : Reg)
  /-- `LWU RD, offset(RS)` (R126). -/
  | lwu (rd : Reg) (offset : Imm) (rs : Reg)
  /-- `LD RD, offset(RS)` (R127). -/
  | ld (rd : Reg) (offset : Imm) (rs : Reg)
  /-- `SB RT, offset(RS)` (R128). -/
  | sb (rt : Reg) (offset : Imm) (rs : Reg)
  /-- `SH RT, offset(RS)` (R129). -/
  | sh (rt : Reg) (offset : Imm) (rs : Reg)
  /-- `SW RT, offset(RS)` (R130). -/
  | sw (rt : Reg) (offset : Imm) (rs : Reg)
  /-- `SD RT, offset(RS)` (R131). -/
  | sd (rt : Reg) (offset : Imm) (rs : Reg)
  /-- `L.S FD, offset(RS)` (R132). -/
  | lS (fd : FReg) (offset : Imm) (rs : Reg)
  /-- `L.D FD, offset(RS)` (R133). -/
  | lD (fd : FReg) (offset : Imm) (rs : Reg)
  /-- `LUI RD, imm` (R134). -/
  | lui (rd : Reg) (imm : Imm)
  /-- `S.S FT, offset(RS)` (R135). -/
  | sS (ft : FReg) (offset : Imm) (rs : Reg)
  /-- `S.D FT, offset(RS)` (R136). -/
  | sD (ft : FReg) (offset : Imm) (rs : Reg)
  -- arithmetic (spec/41_arithmetic.md)
  /-- `DADDU RD, RS, RT` (R141). -/
  | daddu (rd : Reg) (rs : Reg) (rt : Reg)
  /-- `DADDIU RD, RS, imm` (R142). -/
  | daddiu (rd : Reg) (rs : Reg) (imm : Imm)
  /-- `DSUBU RD, RS, RT` (R143). -/
  | dsubu (rd : Reg) (rs : Reg) (rt : Reg)
  /-- `DMULT RS, RT` (R144). -/
  | dmult (rs : Reg) (rt : Reg)
  /-- `DMULTU RS, RT` (R145). -/
  | dmultu (rs : Reg) (rt : Reg)
  /-- `DDIV RS, RT` (R146). -/
  | ddiv (rs : Reg) (rt : Reg)
  /-- `DDIVU RS, RT` (R147). -/
  | ddivu (rs : Reg) (rt : Reg)
  /-- `MADD RS, RT` (R148). -/
  | madd (rs : Reg) (rt : Reg)
  -- special move (spec/42_special_move.md)
  /-- `MFHI RD` (R155). -/
  | mfhi (rd : Reg)
  /-- `MFLO RD` (R156). -/
  | mflo (rd : Reg)
  /-- `MTHI RS` (R157). -/
  | mthi (rs : Reg)
  /-- `MTLO RS` (R158). -/
  | mtlo (rs : Reg)
  /-- `MFC0 RD, CS` (R161). -/
  | mfc0 (rd : Reg) (cs : CReg)
  /-- `MTC0 RS, CD` (R162). -/
  | mtc0 (rs : Reg) (cd : CReg)
  /-- `DMFC0 RD, CS` (R163). -/
  | dmfc0 (rd : Reg) (cs : CReg)
  /-- `DMTC0 RS, CD` (R164). -/
  | dmtc0 (rs : Reg) (cd : CReg)
  /-- `MFC1 RD, FS` (R165). -/
  | mfc1 (rd : Reg) (fs : FReg)
  /-- `MTC1 RS, FD` (R166). -/
  | mtc1 (rs : Reg) (fd : FReg)
  /-- `DMFC1 RD, FS` (R167). -/
  | dmfc1 (rd : Reg) (fs : FReg)
  /-- `DMTC1 RS, FD` (R168). -/
  | dmtc1 (rs : Reg) (fd : FReg)
  /-- `MOV.S FD, FS` (R169). -/
  | movS (fd : FReg) (fs : FReg)
  /-- `MOV.D FD, FS` (R170). -/
  | movD (fd : FReg) (fs : FReg)
  -- logical (spec/43_logical.md)
  /-- `AND RD, RS, RT` (R176). -/
  | and (rd : Reg) (rs : Reg) (rt : Reg)
  /-- `OR RD, RS, RT` (R177). -/
  | or (rd : Reg) (rs : Reg) (rt : Reg)
  /-- `XOR RD, RS, RT` (R178). -/
  | xor (rd : Reg) (rs : Reg) (rt : Reg)
  /-- `NOR RD, RS, RT` (R179). -/
  | nor (rd : Reg) (rs : Reg) (rt : Reg)
  /-- `ANDI RD, RS, imm` (R180). -/
  | andi (rd : Reg) (rs : Reg) (imm : Imm)
  /-- `ORI RD, RS, imm` (R181). -/
  | ori (rd : Reg) (rs : Reg) (imm : Imm)
  /-- `XORI RD, RS, imm` (R182). -/
  | xori (rd : Reg) (rs : Reg) (imm : Imm)
  -- shift (spec/44_shift.md)
  /-- `DSLLV RD, RS, RT` (R186). -/
  | dsllv (rd : Reg) (rs : Reg) (rt : Reg)
  /-- `DSRLV RD, RS, RT` (R187). -/
  | dsrlv (rd : Reg) (rs : Reg) (rt : Reg)
  /-- `DSRAV RD, RS, RT` (R188). -/
  | dsrav (rd : Reg) (rs : Reg) (rt : Reg)
  /-- `DSLL RD, RS, imm` (R189). -/
  | dsll (rd : Reg) (rs : Reg) (sa : Shamt)
  /-- `DSRL RD, RS, imm` (R190). -/
  | dsrl (rd : Reg) (rs : Reg) (sa : Shamt)
  /-- `DSRA RD, RS, imm` (R191). -/
  | dsra (rd : Reg) (rs : Reg) (sa : Shamt)
  -- control and transfer (spec/45_control_transfer.md)
  /-- `J Label` (R197). -/
  | j (index : JField)
  /-- `JR RS` (R198). -/
  | jr (rs : Reg)
  /-- `JAL Label` (R199). -/
  | jal (index : JField)
  /-- `JALR RS` (R200). -/
  | jalr (rs : Reg)
  /-- `BLEZ RS, Label` (R202). -/
  | blez (rs : Reg) (offset : Imm)
  /-- `BLTZ RS, Label` (R203). -/
  | bltz (rs : Reg) (offset : Imm)
  /-- `BGEZ RS, Label` (R204). -/
  | bgez (rs : Reg) (offset : Imm)
  /-- `BGTZ RS, Label` (R205). -/
  | bgtz (rs : Reg) (offset : Imm)
  /-- `BEQ RS, RT, Label` (R206). -/
  | beq (rs : Reg) (rt : Reg) (offset : Imm)
  /-- `BNE RS, RT, Label` (R207). -/
  | bne (rs : Reg) (rt : Reg) (offset : Imm)
  /-- `MOVZ RD, RS, RT` (R208). -/
  | movz (rd : Reg) (rs : Reg) (rt : Reg)
  /-- `MOVN RD, RS, RT` (R209). -/
  | movn (rd : Reg) (rs : Reg) (rt : Reg)
  -- set on condition (spec/46_set_on_condition.md)
  /-- `SLT RD, RS, RT` (R216). -/
  | slt (rd : Reg) (rs : Reg) (rt : Reg)
  /-- `SLTU RD, RS, RT` (R217). -/
  | sltu (rd : Reg) (rs : Reg) (rt : Reg)
  /-- `SLTI RD, RS, imm` (R218). -/
  | slti (rd : Reg) (rs : Reg) (imm : Imm)
  /-- `SLTIU RD, RS, imm` (R219). -/
  | sltiu (rd : Reg) (rs : Reg) (imm : Imm)
  -- floating point (spec/47_floating_point.md)
  /-- `ADD.D FD, FS, FT` (R226). -/
  | addD (fd : FReg) (fs : FReg) (ft : FReg)
  /-- `ADD.S FD, FS, FT` (R227). -/
  | addS (fd : FReg) (fs : FReg) (ft : FReg)
  /-- `ADD.PS FD, FS, FT` (R228). -/
  | addPS (fd : FReg) (fs : FReg) (ft : FReg)
  /-- `SUB.D FD, FS, FT` (R229). -/
  | subD (fd : FReg) (fs : FReg) (ft : FReg)
  /-- `SUB.S FD, FS, FT` (R230). -/
  | subS (fd : FReg) (fs : FReg) (ft : FReg)
  /-- `SUB.PS FD, FS, FT` (R231). -/
  | subPS (fd : FReg) (fs : FReg) (ft : FReg)
  /-- `MUL.D FD, FS, FT` (R232). -/
  | mulD (fd : FReg) (fs : FReg) (ft : FReg)
  /-- `MUL.S FD, FS, FT` (R233). -/
  | mulS (fd : FReg) (fs : FReg) (ft : FReg)
  /-- `MUL.PS FD, FS, FT` (R234). -/
  | mulPS (fd : FReg) (fs : FReg) (ft : FReg)
  /-- `DIV.D FD, FS, FT` (R235). -/
  | divD (fd : FReg) (fs : FReg) (ft : FReg)
  /-- `DIV.S FD, FS, FT` (R236). -/
  | divS (fd : FReg) (fs : FReg) (ft : FReg)
  /-- `DIV.PS FD, FS, FT` (R237). -/
  | divPS (fd : FReg) (fs : FReg) (ft : FReg)
  /-- `MADD.D FD, FR, FS, FT` (R238). -/
  | maddD (fd : FReg) (fr : FReg) (fs : FReg) (ft : FReg)
  /-- `MADD.S FD, FR, FS, FT` (R239). -/
  | maddS (fd : FReg) (fr : FReg) (fs : FReg) (ft : FReg)
  /-- `MADD.PS FD, FR, FS, FT` (R240). -/
  | maddPS (fd : FReg) (fr : FReg) (fs : FReg) (ft : FReg)
  /-- `CVT.S.D FD, FS` (R242). -/
  | cvtSD (fd : FReg) (fs : FReg)
  /-- `CVT.S.W FD, FS` (R243). -/
  | cvtSW (fd : FReg) (fs : FReg)
  /-- `CVT.S.L FD, FS` (R244). -/
  | cvtSL (fd : FReg) (fs : FReg)
  /-- `CVT.D.S FD, FS` (R245). -/
  | cvtDS (fd : FReg) (fs : FReg)
  /-- `CVT.D.W FD, FS` (R246). -/
  | cvtDW (fd : FReg) (fs : FReg)
  /-- `CVT.D.L FD, FS` (R247). -/
  | cvtDL (fd : FReg) (fs : FReg)
  /-- `CVT.W.S FD, FS` (R248). -/
  | cvtWS (fd : FReg) (fs : FReg)
  /-- `CVT.W.D FD, FS` (R249). -/
  | cvtWD (fd : FReg) (fs : FReg)
  /-- `CVT.L.S FD, FS` (R250). -/
  | cvtLS (fd : FReg) (fs : FReg)
  /-- `CVT.L.D FD, FS` (R251). -/
  | cvtLD (fd : FReg) (fs : FReg)
  /-- `C.LT.S FS, FT | C.LT.S cc, FS, FT` (R254). -/
  | cLtS (cc : Cc) (fs : FReg) (ft : FReg)
  /-- `C.LE.S FS, FT | C.LE.S cc, FS, FT` (R255). -/
  | cLeS (cc : Cc) (fs : FReg) (ft : FReg)
  /-- `C.GT.S FS, FT | C.GT.S cc, FS, FT` (R256). -/
  | cGtS (cc : Cc) (fs : FReg) (ft : FReg)
  /-- `C.GE.S FS, FT | C.GE.S cc, FS, FT` (R257). -/
  | cGeS (cc : Cc) (fs : FReg) (ft : FReg)
  /-- `C.EQ.S FS, FT | C.EQ.S cc, FS, FT` (R258). -/
  | cEqS (cc : Cc) (fs : FReg) (ft : FReg)
  /-- `C.NE.S FS, FT | C.NE.S cc, FS, FT` (R259). -/
  | cNeS (cc : Cc) (fs : FReg) (ft : FReg)
  /-- `C.LT.D FS, FT | C.LT.D cc, FS, FT` (R260). -/
  | cLtD (cc : Cc) (fs : FReg) (ft : FReg)
  /-- `C.LE.D FS, FT | C.LE.D cc, FS, FT` (R261). -/
  | cLeD (cc : Cc) (fs : FReg) (ft : FReg)
  /-- `C.GT.D FS, FT | C.GT.D cc, FS, FT` (R262). -/
  | cGtD (cc : Cc) (fs : FReg) (ft : FReg)
  /-- `C.GE.D FS, FT | C.GE.D cc, FS, FT` (R263). -/
  | cGeD (cc : Cc) (fs : FReg) (ft : FReg)
  /-- `C.EQ.D FS, FT | C.EQ.D cc, FS, FT` (R264). -/
  | cEqD (cc : Cc) (fs : FReg) (ft : FReg)
  /-- `C.NE.D FS, FT | C.NE.D cc, FS, FT` (R265). -/
  | cNeD (cc : Cc) (fs : FReg) (ft : FReg)
  /-- `BC1T Label | BC1T cc, Label` (R266). -/
  | bc1t (cc : Cc) (offset : Imm)
  /-- `BC1F Label | BC1F cc, Label` (R267). -/
  | bc1f (cc : Cc) (offset : Imm)
  -- special (spec/48_special.md)
  /-- `TRAP` (R280). -/
  | trap (code : TrapCode)
  /-- `ERET` (R281). -/
  | eret
  /-- `NOP` (R282). -/
  | nop
  deriving DecidableEq, Repr

end Sys2Proof
end

