-- ==== Sys2Proof/Machine/State.lean ====
section
/-! DEFINITION. The state of the machine (spec/10_state.md), its reset value (Table 10-1), and the reasons a step can stop. -/

namespace Sys2Proof.Machine

/-- Memory: (address, byte) pairs with strictly rising addresses below 2^64 (R60). An unlisted byte is one that nothing has
written; it holds no value of its own, and reading it yields a free value (R50; DESIGN CHOICE, safe: log 5). -/
abbrev Memory := List Host.Cell

/-- The canonical form: addresses strictly rising, each a 64-bit address. -/
abbrev Memory.wf (m : Memory) : Prop :=
  m.Pairwise (fun c d => c.1 < d.1) ∧ ∀ c ∈ m, c.1 < 2 ^ 64

/-- One place of the program text (R331): the four bytes from `addr` on. With `placed = none` the instruction is the word
that memory holds there; with `placed = some i` the program is given at the assembly level and holds `i` there (R6, R68),
which is how C.NE, which has no word, comes to run (DESIGN CHOICE, safe: log 10); what a load reads at those four bytes is
log 31 (DESIGN CHOICE, unsafe). -/
structure TextSlot where
  addr : Word
  placed : Option Instr
  deriving DecidableEq, Repr

/-- The fields of Cause that are storage (R42); its other bits read as free values. -/
structure Cause where
  excCode : BitVec 5
  bd : Bool
  ce : BitVec 2
  deriving DecidableEq, Repr

/-- The state. `text` and `params` are fixed for a run (R48) and stand here because a step has no other argument (log 1).
`draws` is the model's own: the number of free values drawn so far (log 4). -/
structure State where
  /-- x[0] to x[31]; x[0] is read and written through `readGpr` and `writeGpr` only (R30, R31). -/
  gpr : Vector Word 32
  hi : Word
  lo : Word
  /-- The address of the instruction being executed (R34). -/
  pc : Word
  /-- The destination after the delay-slot instruction at `pc`, when `pc` is a delay slot (R47). -/
  delay : Option Word
  /-- f[0] to f[31] (R37). -/
  fpr : Vector Word 32
  /-- fcc[0] to fcc[7], all of c1 that is state (R36, R41). -/
  fcc : Vector Bool 8
  /-- c0[12] (R40). -/
  status : Word
  /-- c0[13] (R42). -/
  cause : Cause
  /-- c0[14] (R43). -/
  epc : Word
  /-- c0[8] (R43). -/
  badVAddr : Word
  mem : Memory
  text : List TextSlot
  params : Params
  draws : Nat
  deriving DecidableEq, Repr

/-- Architectural reset (R330, Table 10-1) with `RESET_PC = resetPc` and the platform's parameters: pc, Status.ERL = 1,
delay and x[0] are the spec's; every other register is 0 (DESIGN CHOICE, unsafe: log 3). -/
def State.resetWith (resetPc : Word) (params : Params) : State where
  gpr := Vector.replicate 32 0
  hi := 0
  lo := 0
  pc := resetPc
  delay := none
  fpr := Vector.replicate 32 0
  fcc := Vector.replicate 8 false
  status := 0b100
  cause := ⟨0, false, 0⟩
  epc := 0
  badVAddr := 0
  mem := []
  text := []
  params := params
  draws := 0

/-- The machine right after reset, at the default `RESET_PC` (R330) and the parameters of `Config.defaults` (log 2). -/
def State.reset : State := State.resetWith Config.resetPc Config.defaults

/-- The exceptions of Table 60-1 (R290). -/
inductive Exn where
  | addressErrorLoad (addr : Word)
  | addressErrorStore (addr : Word)
  | busErrorFetch (addr : Word)
  | busErrorData (addr : Word)
  | trap
  /-- Raised by no rule (R295). -/
  | reservedInstruction
  | coprocessorUnusable (n : BitVec 2)
  deriving DecidableEq, Repr

/-- The ends of a run that are not refusals (R333). -/
inductive Fault where
  /-- `Exited` (R333 a): raised by `step` when pc is `END_PC` and no delay slot is pending. Safe: a device of the model, the
  hardware goes on (log 9). -/
  | exited
  /-- `Trapped(E, pc)` (R333 b): raised by every instruction and fetch that raises E while `HOST_TRAPS` is true (R296).
  Safe: no state is changed and the run ends. -/
  | trapped (e : Exn) (pc : Word)
  deriving DecidableEq, Repr

/-- Where spec/ gives the situation no meaning (R15). Every one is safe: the model stops where the hardware goes on. -/
inductive Refusal where
  /-- Raised by an arm of `exec` whose instruction has no meaning yet; no arm does so now. -/
  | notModelled (mnemonic : String)
  /-- Raised by the fetch of a word that matches no row of Table 30-2 (R104, U8). -/
  | wordOutsideCard
  /-- Raised by a jump, a branch or ERET in a delay slot (R196 step 2, U10). -/
  | controlTransferInDelaySlot
  /-- Raised by J and JAL in the last word of a 256 MB region (R197, R199, U14). -/
  | jumpAtRegionEnd
  /-- Raised by JALR R31 (R200, U11). -/
  | jalrRsEqualsLink
  /-- Raised by MADD under `mips32` with an operand that is not a sign-extended word (R148, U19). -/
  | maddOperandNot32bit
  /-- Raised by MFC0, MTC0, DMFC0, DMTC0 of a register other than 8, 12, 13, 14 (R44, R159, U16). -/
  | c0RegisterNotModelled
  /-- Raised by `step`, and by the instructions that look at the mode, when KSU is 01 or 11 with EXL = ERL = 0
  (R45, R312, U17). -/
  | modeNotModelled
  /-- Raised by ERET with Status.ERL = 1 (R281, U18). -/
  | eretWithErl
  /-- Raised by a store any byte of which lies in the program text (R67, R80, U15). -/
  | storeIntoProgramText
  /-- Raised where the next pc would wrap from 0xFFFFFFFFFFFFFFFC to 0 (R35, U9). -/
  | pcWraps
  /-- Raised by a fetch at an address that is in no place of the program text (R80, R333). -/
  | fetchOutsideProgramText
  deriving DecidableEq, Repr

end Sys2Proof.Machine
end

