-- ==== Sys2Proof/Machine/Ops.lean ====
section
/-! DEFINITION. The named operations over registers and memory (spec/10_state.md, spec/20_memory.md), free values, the order of
instructions (spec/45_control_transfer.md R196), and taking an exception and returning from one (spec/60_exceptions.md R296,
spec/48_special.md R281). -/

namespace Sys2Proof.Machine

/-- What a meaning answers. -/
abbrev Result := Host.Outcome State Fault Refusal

-- Free values (R13, R50)

/-- The free value a draw yields now (log 4). -/
def any64 (s : State) : Word := Config.freeWord s.draws

/-- The state after a draw: the next draw is another value. -/
def drawn (s : State) : State := { s with draws := s.draws + 1 }

-- General registers, hi and lo (R30 to R33)

/-- x[r]; x[0] reads as 0 (R31). -/
def readGpr (s : State) (r : Reg) : Word := if r = 0 then 0 else s.gpr[r.toNat]'r.isLt

/-- x[r] <- v; a write to x[0] is discarded (R31). -/
def writeGpr (s : State) (r : Reg) (v : Word) : State :=
  if r = 0 then s else { s with gpr := s.gpr.set r.toNat v r.isLt }

/-- hi <- h and lo <- l. -/
def writeHiLo (s : State) (h l : Word) : State := { s with hi := h, lo := l }

-- Floating-point registers and condition codes (R36 to R38)

/-- f[r]. -/
def readFpr (s : State) (r : FReg) : Word := s.fpr[r.toNat]'r.isLt

/-- f[r][31:0], what a `.S` or W operand is (R225). -/
def readFprLow (s : State) (r : FReg) : BitVec 32 := (readFpr s r).extractLsb' 0 32

/-- f[r][63:32], the upper lane of a `.PS` operand (R225). -/
def readFprHigh (s : State) (r : FReg) : BitVec 32 := (readFpr s r).extractLsb' 32 32

/-- f[r] <- v. -/
def writeFpr (s : State) (r : FReg) (v : Word) : State := { s with fpr := s.fpr.set r.toNat v r.isLt }

/-- f[r] <- any32 ## v, what every 32-bit result but L.S does (R38). -/
def writeFprLow (s : State) (r : FReg) (v : BitVec 32) : State :=
  drawn (writeFpr s r ((any64 s).extractLsb' 32 32 ++ v))

/-- fcc[c]. -/
def readFcc (s : State) (c : Cc) : Bool := s.fcc[c.toNat]'c.isLt

/-- fcc[c] <- b. -/
def writeFcc (s : State) (c : Cc) (b : Bool) : State := { s with fcc := s.fcc.set c.toNat b c.isLt }

-- Status and the mode (R40, R45, R312)

/-- Status.EXL. -/
def exl (s : State) : Bool := s.status.getLsbD 1

/-- Status.ERL. -/
def erl (s : State) : Bool := s.status.getLsbD 2

/-- Status.KSU. -/
def ksu (s : State) : BitVec 2 := s.status.extractLsb' 3 2

/-- Status with EXL = 1. -/
def setExl (st : Word) : Word := st ||| 0b10

/-- Status with EXL = 0. -/
def clearExl (st : Word) : Word := st &&& ~~~0b10

/-- The two modes (R312). -/
inductive Mode where
  | kernel
  | user
  deriving DecidableEq, Repr

/-- The mode Status gives; `none` is KSU = 01 or 11 with EXL = ERL = 0, which R45 refuses. -/
def mode (s : State) : Option Mode :=
  if exl s || erl s || ksu s == 0b00 then some .kernel
  else if ksu s == 0b10 then some .user
  else none

-- Coprocessor 0 (R39 to R44, R159)

/-- Cause as a word: ExcCode, CE and BD in their places, every other bit from `junk` (R42). -/
def causeWord (c : Cause) (junk : Word) : Word :=
  junk.extractLsb' 32 32 ++ BitVec.ofBool c.bd ++ junk.extractLsb' 30 1 ++ c.ce ++ junk.extractLsb' 7 21 ++ c.excCode
    ++ junk.extractLsb' 0 2

/-- c0[n] and the state after the read (a read of Cause draws its uninterpreted bits); `none` where R44 gives the number no
meaning. -/
def readC0 (s : State) (n : CReg) : Option (Word × State) :=
  if n = 8 then some (s.badVAddr, s)
  else if n = 12 then some (s.status, s)
  else if n = 13 then some (causeWord s.cause (any64 s), drawn s)
  else if n = 14 then some (s.epc, s)
  else none

/-- c0[n] <- v; writes to BadVAddr and Cause are discarded (R42, R43, R159). -/
def writeC0 (s : State) (n : CReg) (v : Word) : Option State :=
  if n = 8 then some s
  else if n = 12 then some { s with status := v }
  else if n = 13 then some s
  else if n = 14 then some { s with epc := v }
  else none

/-- c0[n] <- any32 ## v, the 32-bit write of MTC0 (R162); where the write is discarded nothing is drawn. -/
def writeC0Low (s : State) (n : CReg) (v : BitVec 32) : Option State :=
  if n = 8 ∨ n = 13 then some s
  else writeC0 (drawn s) n ((any64 s).extractLsb' 32 32 ++ v)

-- Taking an exception and returning from one (R290, R296, R281)

/-- The code of an exception (Table 60-1). -/
def excCodeOf : Exn → BitVec 5
  | .addressErrorLoad _ => 4
  | .addressErrorStore _ => 5
  | .busErrorFetch _ => 6
  | .busErrorData _ => 7
  | .trap => 8
  | .reservedInstruction => 10
  | .coprocessorUnusable _ => 11

/-- BadVAddr after the exception (R296 c). -/
def badVAddrAfter (e : Exn) (old : Word) : Word :=
  match e with
  | .addressErrorLoad a => a
  | .addressErrorStore a => a
  | _ => old

/-- Trap entry with `HOST_TRAPS` false (R296 a to f): `s` is the state before the instruction at `s.pc`. Cause.CE is n on
CoprocessorUnusable(n) and a free value otherwise. -/
def trapEntry (e : Exn) (s : State) : State :=
  let ce := match e with
    | .coprocessorUnusable n => n
    | _ => (any64 s).extractLsb' 0 2
  let draws := match e with
    | .coprocessorUnusable _ => s.draws
    | _ => s.draws + 1
  { s with
    epc := if exl s then s.epc else if s.delay.isSome then s.pc - 4 else s.pc
    cause :=
      { excCode := excCodeOf e
        bd := if exl s then s.cause.bd else s.delay.isSome
        ce := ce }
    badVAddr := badVAddrAfter e s.badVAddr
    status := setExl s.status
    delay := none
    pc := s.params.excVector
    draws := draws }

/-- `raise e` (R15, R296): none of the instruction's writes happen; the handler is entered, or the run ends as
`Trapped(e, pc)` when `HOST_TRAPS` is true. -/
def raise (e : Exn) (s : State) : Result :=
  if s.params.hostTraps then .fault (.trapped e s.pc) else .next (trapEntry e s)

/-- The return of ERET (R281): pc <- EPC and EXL <- 0, both at once. -/
def exceptionReturn (s : State) : State := { s with pc := s.epc, status := clearExl s.status }

/-- Why an access or a fetch does not go through. -/
inductive Stop where
  | raise (e : Exn)
  | refuse (r : Refusal)
  deriving DecidableEq, Repr

/-- The outcome of a stop in state `s`, the state before the instruction. -/
def stopWith (s : State) : Stop → Result
  | .raise e => raise e s
  | .refuse r => .refused r

/-- Runs `k` in Kernel mode; in User mode the instruction raises CoprocessorUnusable(0) (R160, R281). -/
def kernelOnly (s : State) (k : Result) : Result :=
  match mode s with
  | none => .refused .modeNotModelled
  | some .user => raise (.coprocessorUnusable 0) s
  | some .kernel => k

-- The order of instructions (R34, R35, R196)

/-- No wrap: pc + n is still below 2^64 (U9). -/
def fits (s : State) (n : Nat) : Bool := s.pc.toNat + n < 2 ^ 64

/-- The end of a sequential instruction (R196 step 4): to the pending destination, or to pc + 4. -/
def advance (s : State) : Result :=
  match s.delay with
  | some d => .next { s with pc := d, delay := none }
  | none => if fits s 4 then .next { s with pc := s.pc + 4 } else .refused .pcWraps

/-- Runs a jump, a branch or ERET, which may not stand in a delay slot (R196 step 2). -/
def outsideSlot (s : State) (k : Result) : Result :=
  if s.delay.isSome then .refused .controlTransferInDelaySlot else k

/-- The end of a jump or a taken branch to `target` (R196 step 4). -/
def transfer (target : Word) (s : State) : Result :=
  if s.params.delaySlot then
    if fits s 4 then .next { s with delay := some target, pc := s.pc + 4 } else .refused .pcWraps
  else .next { s with pc := target }

/-- The end of a branch not taken (R196 step 4). -/
def notTaken (s : State) : Result :=
  if s.params.delaySlot then
    if fits s 8 then .next { s with delay := some (s.pc + 8), pc := s.pc + 4 } else .refused .pcWraps
  else if fits s 4 then .next { s with pc := s.pc + 4 } else .refused .pcWraps

-- Memory (R60 to R68)

/-- The byte listed at an address; `none` where nothing has written. -/
def Memory.lookup : Memory → Nat → Option Byte
  | [], _ => none
  | (k, b) :: m, a => if k = a then some b else Memory.lookup m a

/-- mem[a] <- b, keeping the canonical form. -/
def Memory.store : Memory → Nat → Byte → Memory
  | [], a, b => [(a, b)]
  | (k, c) :: m, a, b =>
    if a < k then (a, b) :: (k, c) :: m
    else if a = k then (a, b) :: m
    else (k, c) :: Memory.store m a b

/-- Bytes stored from address `a` upward (addresses modulo 2^64). -/
def Memory.storeBytes : Memory → Word → List Byte → Memory
  | m, _, [] => m
  | m, a, b :: bs => Memory.storeBytes (Memory.store m a.toNat b) (a + 1) bs

/-- The address of byte i of an access at `a`. -/
def byteAddr (a : Word) (i : Nat) : Word := a + BitVec.ofNat 64 i

/-- The k bytes from address `a` upward; a byte that nothing has written is a free value (R50). -/
def readBytes (s : State) (a : Word) (k : Nat) : List Byte :=
  (List.range k).map fun i =>
    (s.mem.lookup (byteAddr a i).toNat).getD ((any64 s).extractLsb' (8 * i) 8)

/-- Some of the k bytes from address `a` upward was never written. -/
def unwritten (s : State) (a : Word) (k : Nat) : Bool :=
  (List.range k).any fun i => (s.mem.lookup (byteAddr a i).toNat).isNone

/-- The state after a read of k bytes: the same (R66), but for the draw where a byte was never written. -/
def afterRead (s : State) (a : Word) (k : Nat) : State := if unwritten s a k then drawn s else s

/-- Bytes with the most significant first, as a zero-extended double-word. -/
def joinBytes (bs : List Byte) : Word := bs.foldl (fun v b => (v <<< 8) ||| b.setWidth 64) 0

/-- The value of the bytes from the lowest address up (R63), zero-extended to 64 bits. -/
def valueOfBytes (e : Endian) (bs : List Byte) : Word :=
  match e with
  | .big => joinBytes bs
  | .little => joinBytes bs.reverse

/-- The low k bytes of a value in the order of their addresses (R63). -/
def bytesOfValue (e : Endian) (k : Nat) (v : Word) : List Byte :=
  let le := (List.range k).map fun i => v.extractLsb' (8 * i) 8
  match e with
  | .big => le.reverse
  | .little => le

/-- The sizes of a data access (R70). -/
inductive Size where
  | byte
  | half
  | word
  | dword
  deriving DecidableEq, Repr

/-- Bytes of an access. -/
def sizeBytes : Size → Nat
  | .byte => 1
  | .half => 2
  | .word => 4
  | .dword => 8

/-- The address lies in one of the regions. -/
def inRegions (rs : List Region) (a : Word) : Bool := rs.any fun r => r.first ≤ a && a ≤ r.last

/-- `Backed` (R61). -/
def backed (s : State) (a : Word) : Bool := inRegions s.params.backed a

/-- `UserAccessible` (R74). -/
def userAccessible (s : State) (a : Word) : Bool := inRegions s.params.userAccessible a

/-- The address lies inside the program text (R80). -/
def inText (s : State) (a : Word) : Bool :=
  s.text.any fun t => t.addr.toNat ≤ a.toNat && a.toNat < t.addr.toNat + 4

/-- All of the k bytes from address `a` upward. -/
def allBytes (a : Word) (k : Nat) (p : Word → Bool) : Bool := (List.range k).all fun i => p (byteAddr a i)

/-- Some of the k bytes from address `a` upward. -/
def someByte (a : Word) (k : Nat) (p : Word → Bool) : Bool := (List.range k).any fun i => p (byteAddr a i)

/-- The checks common to R66, R67 and R68, in their order: alignment, user access (both `bad`), backing (`bus`). A state
whose mode is refused has no access (R45). -/
def checkAccess (a : Word) (k : Nat) (bad bus : Exn) (s : State) : Except Stop Unit :=
  match mode s with
  | none => .error (.refuse .modeNotModelled)
  | some m =>
    if a.toNat % k ≠ 0 then .error (.raise bad)
    else if m = .user ∧ userAccessible s a = false then .error (.raise bad)
    else if allBytes a k (backed s) = false then .error (.raise bus)
    else .ok ()

/-- `MemRead(a, k)` (R66): the value zero-extended to 64 bits, and the state after the read. -/
def memRead (a : Word) (size : Size) (s : State) : Except Stop (Word × State) :=
  let k := sizeBytes size
  match checkAccess a k (.addressErrorLoad a) (.busErrorData a) s with
  | .error e => .error e
  | .ok _ => .ok (valueOfBytes s.params.endian (readBytes s a k), afterRead s a k)

/-- `MemWrite(a, k, v)` of the low k bytes of `v` (R67). -/
def memWrite (a : Word) (size : Size) (v : Word) (s : State) : Except Stop State :=
  let k := sizeBytes size
  match checkAccess a k (.addressErrorStore a) (.busErrorData a) s with
  | .error e => .error e
  | .ok _ =>
    if someByte a k (inText s) then .error (.refuse .storeIntoProgramText)
    else .ok { s with mem := s.mem.storeBytes a (bytesOfValue s.params.endian k v) }

/-- A load (R120): `write` puts the datum into its register. -/
def load (a : Word) (size : Size) (write : State → Word → State) (s : State) : Result :=
  match memRead a size s with
  | .error e => stopWith s e
  | .ok (v, s') => advance (write s' v)

/-- A store (R120). -/
def store (a : Word) (size : Size) (v : Word) (s : State) : Result :=
  match memWrite a size v s with
  | .error e => stopWith s e
  | .ok s' => advance s'

end Sys2Proof.Machine
end

