-- ==== Sys2Proof/Machine/Operands.lean ====
section
/-! DEFINITION. Operand forms: immediates (spec/30_encoding.md R95, R96), the effective address (spec/20_memory.md R69),
branch and jump targets and the link value (spec/45_control_transfer.md R197 to R201). -/

namespace Sys2Proof.Machine

/-- sext_64 of a 16-bit immediate or offset (R95). -/
def sextImm (imm : Imm) : Word := imm.signExtend 64

/-- zext_64 of a 16-bit immediate (R95, R175). -/
def zextImm (imm : Imm) : Word := imm.setWidth 64

/-- The constant of LUI: sext_64(imm ## 0^16) (R134). -/
def luiValue (imm : Imm) : Word := (imm ++ 0#16).signExtend 64

/-- sext_64 of the low n bits of a double-word. -/
def sextLow (n : Nat) (v : Word) : Word := (v.setWidth n).signExtend 64

/-- The effective address offset(RS) (R69). -/
def effectiveAddress (s : State) (rs : Reg) (offset : Imm) : Word := readGpr s rs + sextImm offset

/-- The amount of a variable shift, RT[5:0] (R96, R185). -/
def shiftAmount (v : Word) : Nat := (v.extractLsb' 0 6).toNat

/-- The branch target pc + 4 + sext_64(offset ## 00) (R201), at offset 0 too (DEDUCED: log 29). -/
def branchTarget (pc : Word) (offset : Imm) : Word := pc + 4 + (offset ++ 0b00#2).signExtend 64

/-- The branch target wraps from 0xFFFFFFFFFFFFFFFC to 0, computed exactly (U9; DEDUCED, safe: log 12). -/
def branchWraps (pc : Word) (offset : Imm) : Bool := 2 ^ 64 ≤ (pc.toNat : Int) + 4 + 4 * offset.toInt

/-- The jump target pc[63:28] ## instr_index ## 00 (R197). -/
def jumpTarget (pc : Word) (index : JField) : Word := pc.extractLsb' 28 36 ++ index ++ 0b00#2

/-- The last word of a 256 MB region, where J and JAL are refused (R197). -/
def atRegionEnd (pc : Word) : Bool := pc.extractLsb' 0 28 == 0xFFFFFFC#28

/-- The return address JAL and JALR write to x[31] (R199). -/
def linkValue (s : State) : Word := if s.params.delaySlot then s.pc + 8 else s.pc + 4

/-- A conditional branch (R196, R201, R202). R201 remarks that a taken branch with offset 0 behaves as not taken; with
`DELAY_SLOT` true its formula and R196 step 4 give the pending destination pc + 4, and pc + 8 when not taken, and the formula
is followed (DEDUCED: log 29). -/
def branch (cond : Bool) (offset : Imm) (s : State) : Result :=
  outsideSlot s <|
    if cond then
      if branchWraps s.pc offset then .refused .pcWraps else transfer (branchTarget s.pc offset) s
    else notTaken s

end Sys2Proof.Machine
end

