-- ==== Sys2Proof/Machine/Arithmetic.lean ====
section
/-! DEFINITION. The arithmetic instructions (spec/41_arithmetic.md). None sets a flag, accesses memory or raises an exception (R140). -/

namespace Sys2Proof.Machine

/-- A 128-bit product in hi and lo (R144, R145). -/
def writeProduct (s : State) (p : BitVec 128) : State := writeHiLo s (p.extractLsb' 64 64) (p.extractLsb' 0 64)

/-- hi <- any64 and lo <- any64, two draws (R149). -/
def writeHiLoAny (s : State) : State :=
  let s1 := drawn s
  writeHiLo (drawn s1) (any64 s1) (any64 s)

/-- The value is a sign-extended 32-bit value (R148). -/
def isSextWord (v : Word) : Bool := v == sextLow 32 v

/-- MADD in its 32-bit reading: hi[31:0] ## lo[31:0] plus the product of the low words, modulo 2^64 (R148, `mips32`). -/
def maddWord (s : State) (a b : Word) : State :=
  let r := (s.hi.setWidth 32 ++ s.lo.setWidth 32 : Word) + sextLow 32 a * sextLow 32 b
  writeHiLo s (sextLow 32 (r >>> 32)) (sextLow 32 r)

/-- MADD in its 128-bit reading: hi ## lo plus the signed product, modulo 2^128 (R148, `wide128`). -/
def maddWide (s : State) (a b : Word) : State :=
  writeProduct s ((s.hi ++ s.lo : BitVec 128) + a.signExtend 128 * b.signExtend 128)

/-- DADDU, "Double-word addition" (R141). -/
def execDaddu (rd : Reg) (rs : Reg) (rt : Reg) (s : State) : Result :=
  advance (writeGpr s rd (readGpr s rs + readGpr s rt))

/-- DADDIU, "Double-word add w/immediate (signed constant)" (R142). -/
def execDaddiu (rd : Reg) (rs : Reg) (imm : Imm) (s : State) : Result :=
  advance (writeGpr s rd (readGpr s rs + sextImm imm))

/-- DSUBU, "Double-word subtraction" (R143). -/
def execDsubu (rd : Reg) (rs : Reg) (rt : Reg) (s : State) : Result :=
  advance (writeGpr s rd (readGpr s rs - readGpr s rt))

/-- DMULT, "Double-word multiplication (signed)" (R144). -/
def execDmult (rs : Reg) (rt : Reg) (s : State) : Result :=
  advance (writeProduct s ((readGpr s rs).signExtend 128 * (readGpr s rt).signExtend 128))

/-- DMULTU, "Double-word multiplication (unsigned)" (R145). -/
def execDmultu (rs : Reg) (rt : Reg) (s : State) : Result :=
  advance (writeProduct s ((readGpr s rs).setWidth 128 * (readGpr s rt).setWidth 128))

/-- DDIV, "Double-word division (signed)" (R146, R149): the quotient truncates toward zero (R150 c). -/
def execDdiv (rs : Reg) (rt : Reg) (s : State) : Result :=
  let a := readGpr s rs
  let b := readGpr s rt
  if b = 0 ∨ (a = 0x8000000000000000 ∧ b = 0xFFFFFFFFFFFFFFFF) then advance (writeHiLoAny s)
  else advance (writeHiLo s (BitVec.ofInt 64 (a.toInt.tmod b.toInt)) (BitVec.ofInt 64 (a.toInt.tdiv b.toInt)))

/-- DDIVU, "Double-word division (unsigned)" (R147, R149). -/
def execDdivu (rs : Reg) (rt : Reg) (s : State) : Result :=
  let a := readGpr s rs
  let b := readGpr s rt
  if b = 0 then advance (writeHiLoAny s)
  else advance (writeHiLo s (a % b) (a / b))

/-- MADD, "Multiply-Accumulate" (R148). -/
def execMadd (rs : Reg) (rt : Reg) (s : State) : Result :=
  let a := readGpr s rs
  let b := readGpr s rt
  match s.params.maddMode with
  | .mips32 =>
    if isSextWord a && isSextWord b then advance (maddWord s a b) else .refused .maddOperandNot32bit
  | .wide128 => advance (maddWide s a b)

end Sys2Proof.Machine
end

