-- ==== Sys2Proof/Machine/Control.lean ====
section
/-! DEFINITION. The control and transfer instructions (spec/45_control_transfer.md). The target is read before x[31] is written (R200). -/

namespace Sys2Proof.Machine

/-- J, "Unconditional Jump" (R197). -/
def execJ (index : JField) (s : State) : Result :=
  outsideSlot s <|
    if atRegionEnd s.pc then .refused .jumpAtRegionEnd else transfer (jumpTarget s.pc index) s

/-- JR, "Unconditional Jump, address in register" (R198). -/
def execJr (rs : Reg) (s : State) : Result :=
  outsideSlot s <| transfer (readGpr s rs) s

/-- JAL, "Unconditional Jump & Link (save return address)" (R199). -/
def execJal (index : JField) (s : State) : Result :=
  outsideSlot s <|
    if atRegionEnd s.pc then .refused .jumpAtRegionEnd else transfer (jumpTarget s.pc index) (writeGpr s 31 (linkValue s))

/-- JALR, "Unconditional Jump & Link (save return address), address in register" (R200). -/
def execJalr (rs : Reg) (s : State) : Result :=
  outsideSlot s <|
    if rs = 31 then .refused .jalrRsEqualsLink else transfer (readGpr s rs) (writeGpr s 31 (linkValue s))

/-- BLEZ, "Branch if less than or equal to zero" (R202). -/
def execBlez (rs : Reg) (offset : Imm) (s : State) : Result :=
  branch ((readGpr s rs).toInt ≤ 0) offset s

/-- BLTZ, "Branch if less than zero" (R203). -/
def execBltz (rs : Reg) (offset : Imm) (s : State) : Result :=
  branch ((readGpr s rs).toInt < 0) offset s

/-- BGEZ, "Branch if greater than or equal to zero" (R204). -/
def execBgez (rs : Reg) (offset : Imm) (s : State) : Result :=
  branch (0 ≤ (readGpr s rs).toInt) offset s

/-- BGTZ, "Branch if greater than zero" (R205). -/
def execBgtz (rs : Reg) (offset : Imm) (s : State) : Result :=
  branch (0 < (readGpr s rs).toInt) offset s

/-- BEQ, "Branch if equal" (R206). -/
def execBeq (rs : Reg) (rt : Reg) (offset : Imm) (s : State) : Result :=
  branch (readGpr s rs == readGpr s rt) offset s

/-- BNE, "Branch if not equal" (R207). -/
def execBne (rs : Reg) (rt : Reg) (offset : Imm) (s : State) : Result :=
  branch (readGpr s rs != readGpr s rt) offset s

/-- MOVZ, "Conditional move if zero" (R208). -/
def execMovz (rd : Reg) (rs : Reg) (rt : Reg) (s : State) : Result :=
  advance (if readGpr s rt = 0 then writeGpr s rd (readGpr s rs) else s)

/-- MOVN, "Conditional move if not zero" (R209). -/
def execMovn (rd : Reg) (rs : Reg) (rt : Reg) (s : State) : Result :=
  advance (if readGpr s rt ≠ 0 then writeGpr s rd (readGpr s rs) else s)

end Sys2Proof.Machine
end

