-- ==== Sys2Proof/Machine/Ieee.lean ====
section
/-! DEFINITION. The numerics record `FP` of spec/47_floating_point.md R222 with the properties of R223 (IEEE 754 formats and
correct rounding) and R224 (NaN, infinity, out of range): those are of the default record, whose arithmetic is exact on
integers and rounded once (DEDUCED: log 7). In another record every function is opaque (log 30). -/

namespace Sys2Proof.Machine

/-- A binary floating-point format: widths of the exponent and of the fraction field (R223). -/
structure Format where
  expBits : Nat
  fracBits : Nat
  deriving DecidableEq, Repr

/-- binary32 (R223). -/
def single : Format := ⟨8, 23⟩

/-- binary64 (R223). -/
def double : Format := ⟨11, 52⟩

/-- The number a bit pattern denotes (R223, `val` of R253): a finite number is (-1)^neg * m * 2^e. -/
inductive FpVal where
  | nan
  | inf (neg : Bool)
  | fin (neg : Bool) (m : Nat) (e : Int)
  deriving DecidableEq, Repr

/-- An operation's result: a bit pattern of the destination format, or a NaN, whose bits are under no law (R224). -/
inductive FpResult where
  | bits (n : Nat)
  | nan
  deriving DecidableEq, Repr

/-- The exponent bias. -/
def bias (f : Format) : Int := 2 ^ (f.expBits - 1) - 1

/-- The exponent of the smallest normal number. -/
def minExp (f : Format) : Int := 1 - bias f

/-- The pattern of +infinity. -/
def infBits (f : Format) : Nat := (2 ^ f.expBits - 1) * 2 ^ f.fracBits

/-- The pattern of the largest finite number. -/
def maxFinite (f : Format) : Nat := infBits f - 1

/-- A magnitude pattern with its sign bit. -/
def withSign (f : Format) (neg : Bool) (mag : Nat) : Nat :=
  if neg then 2 ^ (f.expBits + f.fracBits) + mag else mag

/-- The number of a bit pattern (R223). -/
def unpack (f : Format) (b : Nat) : FpVal :=
  let neg := b / 2 ^ (f.expBits + f.fracBits) % 2 == 1
  let ex := b / 2 ^ f.fracBits % 2 ^ f.expBits
  let fr := b % 2 ^ f.fracBits
  if ex = 2 ^ f.expBits - 1 then
    if fr = 0 then .inf neg else .nan
  else if ex = 0 then .fin neg fr (minExp f - f.fracBits)
  else .fin neg (2 ^ f.fracBits + fr) (minExp f - f.fracBits + (ex - 1 : Nat))

/-- An operand of an arithmetic or conversion function: with `flush` and `flushOperands` a denormal is the zero of its sign
(R222; log 8). -/
def operand (fp : FpRecord) (f : Format) (b : Nat) : FpVal :=
  match unpack f b with
  | .fin neg m e => if fp.flush && fp.flushOperands && m < 2 ^ f.fracBits then .fin neg 0 e else .fin neg m e
  | v => v

/-- n / d as an integer by the rounding mode, for a number of the given sign (R223). -/
def roundQuotient (rm : RoundMode) (neg : Bool) (n d : Nat) : Nat :=
  let q := n / d
  let r := n % d
  let up := match rm with
    | .nearestEven => 2 * r > d || (2 * r == d && q % 2 == 1)
    | .towardZero => false
    | .towardPlusInf => r != 0 && !neg
    | .towardMinusInf => r != 0 && neg
  if up then q + 1 else q

/-- The greatest k with 2^k ≤ n / d, for n and d not 0. -/
def floorLog2 (n d : Nat) : Int :=
  let k : Int := (Nat.log2 n : Int) - Nat.log2 d
  if d * 2 ^ k.toNat ≤ n * 2 ^ (-k).toNat then k else k - 1

/-- The magnitude pattern of an overflow, by mode and sign (R223). -/
def overflowBits (f : Format) (rm : RoundMode) (neg : Bool) : Nat :=
  match rm with
  | .nearestEven => infBits f
  | .towardZero => maxFinite f
  | .towardPlusInf => if neg then maxFinite f else infBits f
  | .towardMinusInf => if neg then infBits f else maxFinite f

/-- The exact number (-1)^neg * n / d * 2^e (n and d not 0), rounded once to the format: P-round of R223, with `flush` for a
denormal result (R222). The last place of the result has weight 2^ulp; a magnitude pattern is the significand in units of
2^ulp above the patterns of the smaller exponents, so a carry out of the significand moves to the next exponent. -/
def roundTo (fp : FpRecord) (f : Format) (neg : Bool) (n d : Nat) (e : Int) : Nat :=
  let top := max (floorLog2 n d + e) (minExp f)
  let ulp := top - f.fracBits
  let sig := roundQuotient fp.rm neg (n * 2 ^ (e - ulp).toNat) (d * 2 ^ (ulp - e).toNat)
  let mag := (top - minExp f).toNat * 2 ^ f.fracBits + sig
  let mag := if infBits f ≤ mag then overflowBits f fp.rm neg else mag
  let mag := if fp.flush && mag < 2 ^ f.fracBits then 0 else mag
  withSign f neg mag

/-- The pattern of (-1)^neg * m * 2^e, rounded; m = 0 is the zero of that sign. -/
def packFin (fp : FpRecord) (f : Format) (neg : Bool) (m : Nat) (e : Int) : FpResult :=
  if m = 0 then .bits (withSign f neg 0) else .bits (roundTo fp f neg m 1 e)

/-- The pattern of an infinity. -/
def packInf (f : Format) (neg : Bool) : FpResult := .bits (withSign f neg (infBits f))

/-- m with a sign, as an integer. -/
def signedMag (neg : Bool) (m : Nat) : Int := if neg then -(m : Int) else m

/-- The exact sum of two finite numbers, rounded: an exact zero sum is +0, or -0 toward minus infinity, but the sum of two
zeros of one sign keeps it (R223). -/
def addFin (fp : FpRecord) (f : Format) (n1 : Bool) (m1 : Nat) (e1 : Int) (n2 : Bool) (m2 : Nat) (e2 : Int) : FpResult :=
  let e := min e1 e2
  let sum := signedMag n1 (m1 * 2 ^ (e1 - e).toNat) + signedMag n2 (m2 * 2 ^ (e2 - e).toNat)
  if sum = 0 then
    .bits (withSign f (if n1 == n2 then n1 else fp.rm == .towardMinusInf) 0)
  else packFin fp f (sum < 0) sum.natAbs e

/-- FS + FT (R223, R224). -/
def fpAdd (fp : FpRecord) (f : Format) : FpVal → FpVal → FpResult
  | .nan, _ => .nan
  | _, .nan => .nan
  | .inf a, .inf b => if a == b then packInf f a else .nan
  | .inf a, .fin _ _ _ => packInf f a
  | .fin _ _ _, .inf b => packInf f b
  | .fin n1 m1 e1, .fin n2 m2 e2 => addFin fp f n1 m1 e1 n2 m2 e2

/-- The number with its sign changed. -/
def fpNeg : FpVal → FpVal
  | .nan => .nan
  | .inf a => .inf (!a)
  | .fin n m e => .fin (!n) m e

/-- FS - FT. -/
def fpSub (fp : FpRecord) (f : Format) (a b : FpVal) : FpResult := fpAdd fp f a (fpNeg b)

/-- FS * FT. -/
def fpMul (fp : FpRecord) (f : Format) : FpVal → FpVal → FpResult
  | .nan, _ => .nan
  | _, .nan => .nan
  | .inf a, .inf b => packInf f (a != b)
  | .inf a, .fin n m _ => if m = 0 then .nan else packInf f (a != n)
  | .fin n m _, .inf b => if m = 0 then .nan else packInf f (n != b)
  | .fin n1 m1 e1, .fin n2 m2 e2 => packFin fp f (n1 != n2) (m1 * m2) (e1 + e2)

/-- FS / FT; a finite number other than 0 divided by 0 is an infinity (P-divzero of R224). -/
def fpDiv (fp : FpRecord) (f : Format) : FpVal → FpVal → FpResult
  | .nan, _ => .nan
  | _, .nan => .nan
  | .inf _, .inf _ => .nan
  | .inf a, .fin n _ _ => packInf f (a != n)
  | .fin n _ _, .inf b => .bits (withSign f (n != b) 0)
  | .fin n1 m1 e1, .fin n2 m2 e2 =>
    if m2 = 0 then
      if m1 = 0 then .nan else packInf f (n1 != n2)
    else if m1 = 0 then .bits (withSign f (n1 != n2) 0)
    else .bits (roundTo fp f (n1 != n2) m1 m2 (e1 - e2))

/-- FS * FT + FR with one rounding (R222). -/
def fpFma (fp : FpRecord) (f : Format) (s t r : FpVal) : FpResult :=
  match s, t, r with
  | .nan, _, _ => .nan
  | _, .nan, _ => .nan
  | _, _, .nan => .nan
  | .fin n1 m1 e1, .fin n2 m2 e2, .fin n3 m3 e3 => addFin fp f (n1 != n2) (m1 * m2) (e1 + e2) n3 m3 e3
  | .fin _ _ _, .fin _ _ _, .inf c => packInf f c
  | .inf a, .inf b, r => infPlus f (a != b) r
  | .inf a, .fin n m _, r => if m = 0 then .nan else infPlus f (a != n) r
  | .fin n m _, .inf b, r => if m = 0 then .nan else infPlus f (n != b) r
where
  /-- An infinite product plus FR, which is no NaN. -/
  infPlus (f : Format) (neg : Bool) : FpVal → FpResult
    | .inf c => if neg == c then packInf f neg else .nan
    | _ => packInf f neg

/-- A number in another format (R242, R245). -/
def fpConvert (fp : FpRecord) (dst : Format) : FpVal → FpResult
  | .nan => .nan
  | .inf a => packInf dst a
  | .fin n m e => packFin fp dst n m e

/-- An integer in a format; 0 gives +0 (R243, R244, R246, R247). -/
def fpOfInt (fp : FpRecord) (dst : Format) (z : Int) : FpResult := packFin fp dst (z < 0) z.natAbs 0

/-- A number rounded to an integer; `none` for a NaN or an infinity (R248 to R251). -/
def fpToInt (fp : FpRecord) : FpVal → Option Int
  | .nan => none
  | .inf _ => none
  | .fin n m e => some (signedMag n (roundQuotient fp.rm n (m * 2 ^ e.toNat) (2 ^ (-e).toNat)))

-- The functions of the record on bit patterns

/-- Some NaN of binary32: every NaN is the image of some `junk`, and nothing else is (P-nan of R224; log 6). -/
def nan32 (junk : Word) : BitVec 32 :=
  let b := junk.setWidth 32 ||| 0x7F800000#32
  if b.extractLsb' 0 23 = 0#23 then b ||| 0x00400000#32 else b

/-- Some NaN of binary64. -/
def nan64 (junk : Word) : Word :=
  let b := junk ||| 0x7FF0000000000000#64
  if b.extractLsb' 0 52 = 0#52 then b ||| 0x0008000000000000#64 else b

/-- The value of the function `op` of the record: `ieee` in the default record, some value in another (R222, U29; log 30). -/
def ofRecord (w : Nat) (fp : FpRecord) (op : FpOp) (args : List Word) (ieee : BitVec w) : BitVec w :=
  match fp.functions with
  | .ieee => ieee
  | .other _ => (Config.otherFunction fp op args).setWidth w

/-- A binary32 result; the bits of a NaN are under no law, fixed by the operands (R224). -/
def result32 (fp : FpRecord) (op : FpOp) (args : List Word) (r : FpResult) : BitVec 32 :=
  ofRecord 32 fp op args <| match r with
    | .bits n => BitVec.ofNat 32 n
    | .nan => nan32 (Config.underNoLaw fp op args)

/-- A binary64 result. -/
def result64 (fp : FpRecord) (op : FpOp) (args : List Word) (r : FpResult) : Word :=
  ofRecord 64 fp op args <| match r with
    | .bits n => BitVec.ofNat 64 n
    | .nan => nan64 (Config.underNoLaw fp op args)

/-- A W or L result of w bits: exact in range, under no law otherwise (P-int of R224). -/
def resultInt (w : Nat) (fp : FpRecord) (op : FpOp) (args : List Word) (r : Option Int) : BitVec w :=
  ofRecord w fp op args <| match r with
    | some z =>
      if -(2 ^ (w - 1)) ≤ z ∧ z < 2 ^ (w - 1) then BitVec.ofInt w z else (Config.underNoLaw fp op args).setWidth w
    | none => (Config.underNoLaw fp op args).setWidth w

/-- A single operand. -/
def singleOperand (fp : FpRecord) (a : BitVec 32) : FpVal := operand fp single a.toNat

/-- A double operand. -/
def doubleOperand (fp : FpRecord) (a : Word) : FpVal := operand fp double a.toNat

/-- A binary function on singles. -/
def binary32 (fp : FpRecord) (op : FpOp) (g : FpVal → FpVal → FpResult) (a b : BitVec 32) : BitVec 32 :=
  result32 fp op [a.setWidth 64, b.setWidth 64] (g (singleOperand fp a) (singleOperand fp b))

/-- A binary function on doubles. -/
def binary64 (fp : FpRecord) (op : FpOp) (g : FpVal → FpVal → FpResult) (a b : Word) : Word :=
  result64 fp op [a, b] (g (doubleOperand fp a) (doubleOperand fp b))

/-- FP.add_s. -/
def fpAddS (fp : FpRecord) : BitVec 32 → BitVec 32 → BitVec 32 := binary32 fp .addS (fpAdd fp single)
/-- FP.sub_s. -/
def fpSubS (fp : FpRecord) : BitVec 32 → BitVec 32 → BitVec 32 := binary32 fp .subS (fpSub fp single)
/-- FP.mul_s. -/
def fpMulS (fp : FpRecord) : BitVec 32 → BitVec 32 → BitVec 32 := binary32 fp .mulS (fpMul fp single)
/-- FP.div_s. -/
def fpDivS (fp : FpRecord) : BitVec 32 → BitVec 32 → BitVec 32 := binary32 fp .divS (fpDiv fp single)
/-- FP.add_d. -/
def fpAddD (fp : FpRecord) : Word → Word → Word := binary64 fp .addD (fpAdd fp double)
/-- FP.sub_d. -/
def fpSubD (fp : FpRecord) : Word → Word → Word := binary64 fp .subD (fpSub fp double)
/-- FP.mul_d. -/
def fpMulD (fp : FpRecord) : Word → Word → Word := binary64 fp .mulD (fpMul fp double)
/-- FP.div_d. -/
def fpDivD (fp : FpRecord) : Word → Word → Word := binary64 fp .divD (fpDiv fp double)

/-- FP.fma_s(s, t, r). -/
def fpFmaS (fp : FpRecord) (s t r : BitVec 32) : BitVec 32 :=
  result32 fp .fmaS [s.setWidth 64, t.setWidth 64, r.setWidth 64]
    (fpFma fp single (singleOperand fp s) (singleOperand fp t) (singleOperand fp r))

/-- FP.fma_d(s, t, r). -/
def fpFmaD (fp : FpRecord) (s t r : Word) : Word :=
  result64 fp .fmaD [s, t, r] (fpFma fp double (doubleOperand fp s) (doubleOperand fp t) (doubleOperand fp r))

/-- madd_s(r, s, t) (R239). -/
def fpMaddS (fp : FpRecord) (r s t : BitVec 32) : BitVec 32 :=
  if fp.fused then fpFmaS fp s t r else fpAddS fp (fpMulS fp s t) r

/-- madd_d(r, s, t) (R238). -/
def fpMaddD (fp : FpRecord) (r s t : Word) : Word :=
  if fp.fused then fpFmaD fp s t r else fpAddD fp (fpMulD fp s t) r

/-- FP.cvt_s_d. -/
def fpCvtSD (fp : FpRecord) (a : Word) : BitVec 32 := result32 fp .cvtSD [a] (fpConvert fp single (doubleOperand fp a))
/-- FP.cvt_s_w. -/
def fpCvtSW (fp : FpRecord) (a : BitVec 32) : BitVec 32 := result32 fp .cvtSW [a.setWidth 64] (fpOfInt fp single a.toInt)
/-- FP.cvt_s_l. -/
def fpCvtSL (fp : FpRecord) (a : Word) : BitVec 32 := result32 fp .cvtSL [a] (fpOfInt fp single a.toInt)
/-- FP.cvt_d_s. -/
def fpCvtDS (fp : FpRecord) (a : BitVec 32) : Word :=
  result64 fp .cvtDS [a.setWidth 64] (fpConvert fp double (singleOperand fp a))
/-- FP.cvt_d_w. -/
def fpCvtDW (fp : FpRecord) (a : BitVec 32) : Word := result64 fp .cvtDW [a.setWidth 64] (fpOfInt fp double a.toInt)
/-- FP.cvt_d_l. -/
def fpCvtDL (fp : FpRecord) (a : Word) : Word := result64 fp .cvtDL [a] (fpOfInt fp double a.toInt)
/-- FP.cvt_w_s. -/
def fpCvtWS (fp : FpRecord) (a : BitVec 32) : BitVec 32 :=
  resultInt 32 fp .cvtWS [a.setWidth 64] (fpToInt fp (singleOperand fp a))
/-- FP.cvt_w_d. -/
def fpCvtWD (fp : FpRecord) (a : Word) : BitVec 32 := resultInt 32 fp .cvtWD [a] (fpToInt fp (doubleOperand fp a))
/-- FP.cvt_l_s. -/
def fpCvtLS (fp : FpRecord) (a : BitVec 32) : Word :=
  resultInt 64 fp .cvtLS [a.setWidth 64] (fpToInt fp (singleOperand fp a))
/-- FP.cvt_l_d. -/
def fpCvtLD (fp : FpRecord) (a : Word) : Word := resultInt 64 fp .cvtLD [a] (fpToInt fp (doubleOperand fp a))

end Sys2Proof.Machine
end

