-- ==== Sys2Proof/Machine/FloatArith.lean ====
section
/-! DEFINITION. Floating-point add, subtract, multiply, divide and multiply-add (spec/47_floating_point.md R225 to R240). -/

namespace Sys2Proof.Machine

/-- f[FD] <- any32 ## g(FS[31:0], FT[31:0]) (R225). -/
def floatS (g : FpRecord → BitVec 32 → BitVec 32 → BitVec 32) (fd fs ft : FReg) (s : State) : Result :=
  advance (writeFprLow s fd (g s.params.fp (readFprLow s fs) (readFprLow s ft)))

/-- f[FD] <- g(FS, FT) (R225). -/
def floatD (g : FpRecord → Word → Word → Word) (fd fs ft : FReg) (s : State) : Result :=
  advance (writeFpr s fd (g s.params.fp (readFpr s fs) (readFpr s ft)))

/-- The two lanes of a pair of singles, each by g (R225). -/
def floatPS (g : FpRecord → BitVec 32 → BitVec 32 → BitVec 32) (fd fs ft : FReg) (s : State) : Result :=
  advance (writeFpr s fd
    (g s.params.fp (readFprHigh s fs) (readFprHigh s ft) ++ g s.params.fp (readFprLow s fs) (readFprLow s ft)))

/-- ADD.D, "Add double precision" (R226). -/
def execAddD (fd : FReg) (fs : FReg) (ft : FReg) (s : State) : Result :=
  floatD fpAddD fd fs ft s

/-- ADD.S, "Add single precision" (R227). -/
def execAddS (fd : FReg) (fs : FReg) (ft : FReg) (s : State) : Result :=
  floatS fpAddS fd fs ft s

/-- ADD.PS, "Add pair of single precision" (R228). -/
def execAddPS (fd : FReg) (fs : FReg) (ft : FReg) (s : State) : Result :=
  floatPS fpAddS fd fs ft s

/-- SUB.D, "Subtract double precision" (R229). -/
def execSubD (fd : FReg) (fs : FReg) (ft : FReg) (s : State) : Result :=
  floatD fpSubD fd fs ft s

/-- SUB.S, "Subtract single precision" (R230). -/
def execSubS (fd : FReg) (fs : FReg) (ft : FReg) (s : State) : Result :=
  floatS fpSubS fd fs ft s

/-- SUB.PS, "Subtract pair of single precision" (R231). -/
def execSubPS (fd : FReg) (fs : FReg) (ft : FReg) (s : State) : Result :=
  floatPS fpSubS fd fs ft s

/-- MUL.D, "Multiply double precision" (R232). -/
def execMulD (fd : FReg) (fs : FReg) (ft : FReg) (s : State) : Result :=
  floatD fpMulD fd fs ft s

/-- MUL.S, "Multiply single precision" (R233). -/
def execMulS (fd : FReg) (fs : FReg) (ft : FReg) (s : State) : Result :=
  floatS fpMulS fd fs ft s

/-- MUL.PS, "Multiply pair of single precision" (R234). -/
def execMulPS (fd : FReg) (fs : FReg) (ft : FReg) (s : State) : Result :=
  floatPS fpMulS fd fs ft s

/-- DIV.D, "Divide double precision" (R235). -/
def execDivD (fd : FReg) (fs : FReg) (ft : FReg) (s : State) : Result :=
  floatD fpDivD fd fs ft s

/-- DIV.S, "Divide single precision" (R236). -/
def execDivS (fd : FReg) (fs : FReg) (ft : FReg) (s : State) : Result :=
  floatS fpDivS fd fs ft s

/-- DIV.PS, "Divide pair of single precision" (R237). -/
def execDivPS (fd : FReg) (fs : FReg) (ft : FReg) (s : State) : Result :=
  floatPS fpDivS fd fs ft s

/-- MADD.D, "Multiply-ADD double precision" (R238). -/
def execMaddD (fd : FReg) (fr : FReg) (fs : FReg) (ft : FReg) (s : State) : Result :=
  advance (writeFpr s fd (fpMaddD s.params.fp (readFpr s fr) (readFpr s fs) (readFpr s ft)))

/-- MADD.S, "Multiply-ADD single precision" (R239). -/
def execMaddS (fd : FReg) (fr : FReg) (fs : FReg) (ft : FReg) (s : State) : Result :=
  advance (writeFprLow s fd (fpMaddS s.params.fp (readFprLow s fr) (readFprLow s fs) (readFprLow s ft)))

/-- MADD.PS, "Multiply-ADD pair of single precision" (R240). -/
def execMaddPS (fd : FReg) (fr : FReg) (fs : FReg) (ft : FReg) (s : State) : Result :=
  advance (writeFpr s fd
    (fpMaddS s.params.fp (readFprHigh s fr) (readFprHigh s fs) (readFprHigh s ft)
      ++ fpMaddS s.params.fp (readFprLow s fr) (readFprLow s fs) (readFprLow s ft)))

end Sys2Proof.Machine
end

