-- ==== Sys2Proof/Machine/Flags.lean ====
section
/-! DEFINITION. The condition codes, the machine's only flags (spec/10_state.md R36): the relations of
spec/47_floating_point.md R253 on the numbers the patterns denote. -/

namespace Sys2Proof.Machine

/-- Two finite numbers in units of the smaller of their last places. -/
def onCommonScale (n1 : Bool) (m1 : Nat) (e1 : Int) (n2 : Bool) (m2 : Nat) (e2 : Int) : Int × Int :=
  let e := min e1 e2
  (signedMag n1 (m1 * 2 ^ (e1 - e).toNat), signedMag n2 (m2 * 2 ^ (e2 - e).toNat))

/-- a < b on the extended reals; false when unordered (R253). -/
def fpLt : FpVal → FpVal → Bool
  | .nan, _ => false
  | _, .nan => false
  | .inf a, .inf b => a && !b
  | .inf a, .fin _ _ _ => a
  | .fin _ _ _, .inf b => !b
  | .fin n1 m1 e1, .fin n2 m2 e2 =>
    let p := onCommonScale n1 m1 e1 n2 m2 e2
    p.1 < p.2

/-- a = b on the extended reals; +0 equals -0; false when unordered (R253). -/
def fpEq : FpVal → FpVal → Bool
  | .nan, _ => false
  | _, .nan => false
  | .inf a, .inf b => a == b
  | .inf _, .fin _ _ _ => false
  | .fin _ _ _, .inf _ => false
  | .fin n1 m1 e1, .fin n2 m2 e2 =>
    let p := onCommonScale n1 m1 e1 n2 m2 e2
    p.1 == p.2

/-- a ≤ b on the extended reals; false when unordered (R253). -/
def fpLe (a b : FpVal) : Bool := fpLt a b || fpEq a b

/-- val of f[r][31:0]; a comparison flushes nothing (R222, R253). -/
def valS (s : State) (r : FReg) : FpVal := unpack single (readFprLow s r).toNat

/-- val of f[r]. -/
def valD (s : State) (r : FReg) : FpVal := unpack double (readFpr s r).toNat

end Sys2Proof.Machine
end

