-- ==== Sys2Proof/Machine/FloatCompare.lean ====
section
/-! DEFINITION. The compares C._.S and C._.D and the floating-point branches (spec/47_floating_point.md R253 to R267). -/

namespace Sys2Proof.Machine

/-- C.LT.S, compare single, less than (R254). -/
def execCLtS (cc : Cc) (fs : FReg) (ft : FReg) (s : State) : Result :=
  advance (writeFcc s cc (fpLt (valS s fs) (valS s ft)))

/-- C.LE.S, compare single, less than or equal (R255). -/
def execCLeS (cc : Cc) (fs : FReg) (ft : FReg) (s : State) : Result :=
  advance (writeFcc s cc (fpLe (valS s fs) (valS s ft)))

/-- C.GT.S, compare single, greater than (R256). -/
def execCGtS (cc : Cc) (fs : FReg) (ft : FReg) (s : State) : Result :=
  advance (writeFcc s cc (fpLt (valS s ft) (valS s fs)))

/-- C.GE.S, compare single, greater than or equal (R257). -/
def execCGeS (cc : Cc) (fs : FReg) (ft : FReg) (s : State) : Result :=
  advance (writeFcc s cc (fpLe (valS s ft) (valS s fs)))

/-- C.EQ.S, compare single, equal (R258). -/
def execCEqS (cc : Cc) (fs : FReg) (ft : FReg) (s : State) : Result :=
  advance (writeFcc s cc (fpEq (valS s fs) (valS s ft)))

/-- C.NE.S, compare single, not equal (R259). -/
def execCNeS (cc : Cc) (fs : FReg) (ft : FReg) (s : State) : Result :=
  advance (writeFcc s cc (!fpEq (valS s fs) (valS s ft)))

/-- C.LT.D, compare double, less than (R260). -/
def execCLtD (cc : Cc) (fs : FReg) (ft : FReg) (s : State) : Result :=
  advance (writeFcc s cc (fpLt (valD s fs) (valD s ft)))

/-- C.LE.D, compare double, less than or equal (R261). -/
def execCLeD (cc : Cc) (fs : FReg) (ft : FReg) (s : State) : Result :=
  advance (writeFcc s cc (fpLe (valD s fs) (valD s ft)))

/-- C.GT.D, compare double, greater than (R262). -/
def execCGtD (cc : Cc) (fs : FReg) (ft : FReg) (s : State) : Result :=
  advance (writeFcc s cc (fpLt (valD s ft) (valD s fs)))

/-- C.GE.D, compare double, greater than or equal (R263). -/
def execCGeD (cc : Cc) (fs : FReg) (ft : FReg) (s : State) : Result :=
  advance (writeFcc s cc (fpLe (valD s ft) (valD s fs)))

/-- C.EQ.D, compare double, equal (R264). -/
def execCEqD (cc : Cc) (fs : FReg) (ft : FReg) (s : State) : Result :=
  advance (writeFcc s cc (fpEq (valD s fs) (valD s ft)))

/-- C.NE.D, compare double, not equal (R265). -/
def execCNeD (cc : Cc) (fs : FReg) (ft : FReg) (s : State) : Result :=
  advance (writeFcc s cc (!fpEq (valD s fs) (valD s ft)))

/-- BC1T, "Branch if FP status register is 1" (R266). -/
def execBc1t (cc : Cc) (offset : Imm) (s : State) : Result :=
  branch (readFcc s cc) offset s

/-- BC1F, "Branch if FP status register is 0" (R267). -/
def execBc1f (cc : Cc) (offset : Imm) (s : State) : Result :=
  branch (!readFcc s cc) offset s

end Sys2Proof.Machine
end

