-- ==== Sys2Proof/Machine/FloatConvert.lean ====
section
/-! DEFINITION. The conversions CVT.x.y (spec/47_floating_point.md R241 to R251). -/

namespace Sys2Proof.Machine

/-- CVT.S.D, convert double to single (R242). -/
def execCvtSD (fd : FReg) (fs : FReg) (s : State) : Result :=
  advance (writeFprLow s fd (fpCvtSD s.params.fp (readFpr s fs)))

/-- CVT.S.W, convert 32-bit integer to single (R243). -/
def execCvtSW (fd : FReg) (fs : FReg) (s : State) : Result :=
  advance (writeFprLow s fd (fpCvtSW s.params.fp (readFprLow s fs)))

/-- CVT.S.L, convert 64-bit integer to single (R244). -/
def execCvtSL (fd : FReg) (fs : FReg) (s : State) : Result :=
  advance (writeFprLow s fd (fpCvtSL s.params.fp (readFpr s fs)))

/-- CVT.D.S, convert single to double (R245). -/
def execCvtDS (fd : FReg) (fs : FReg) (s : State) : Result :=
  advance (writeFpr s fd (fpCvtDS s.params.fp (readFprLow s fs)))

/-- CVT.D.W, convert 32-bit integer to double (R246). -/
def execCvtDW (fd : FReg) (fs : FReg) (s : State) : Result :=
  advance (writeFpr s fd (fpCvtDW s.params.fp (readFprLow s fs)))

/-- CVT.D.L, convert 64-bit integer to double (R247). -/
def execCvtDL (fd : FReg) (fs : FReg) (s : State) : Result :=
  advance (writeFpr s fd (fpCvtDL s.params.fp (readFpr s fs)))

/-- CVT.W.S, convert single to 32-bit integer (R248). -/
def execCvtWS (fd : FReg) (fs : FReg) (s : State) : Result :=
  advance (writeFprLow s fd (fpCvtWS s.params.fp (readFprLow s fs)))

/-- CVT.W.D, convert double to 32-bit integer (R249). -/
def execCvtWD (fd : FReg) (fs : FReg) (s : State) : Result :=
  advance (writeFprLow s fd (fpCvtWD s.params.fp (readFpr s fs)))

/-- CVT.L.S, convert single to 64-bit integer (R250). -/
def execCvtLS (fd : FReg) (fs : FReg) (s : State) : Result :=
  advance (writeFpr s fd (fpCvtLS s.params.fp (readFprLow s fs)))

/-- CVT.L.D, convert double to 64-bit integer (R251). -/
def execCvtLD (fd : FReg) (fs : FReg) (s : State) : Result :=
  advance (writeFpr s fd (fpCvtLD s.params.fp (readFpr s fs)))

end Sys2Proof.Machine
end

