-- ==== Sys2Proof/Machine/LoadStore.lean ====
section
/-! DEFINITION. The load-store instructions (spec/40_load_store.md). `load` and `store` hold what they share (R120); `memRead` gives the
datum zero-extended, so an unsigned load writes it as it is. -/

namespace Sys2Proof.Machine

/-- LB, "Load byte (signed)" (R121). -/
def execLb (rd : Reg) (offset : Imm) (rs : Reg) (s : State) : Result :=
  load (effectiveAddress s rs offset) .byte (fun s v => writeGpr s rd (sextLow 8 v)) s

/-- LBU, "Load byte (unsigned)" (R122). -/
def execLbu (rd : Reg) (offset : Imm) (rs : Reg) (s : State) : Result :=
  load (effectiveAddress s rs offset) .byte (fun s v => writeGpr s rd v) s

/-- LH, "Load half-word (signed)" (R123). -/
def execLh (rd : Reg) (offset : Imm) (rs : Reg) (s : State) : Result :=
  load (effectiveAddress s rs offset) .half (fun s v => writeGpr s rd (sextLow 16 v)) s

/-- LHU, "Load half-word (unsigned)" (R124). -/
def execLhu (rd : Reg) (offset : Imm) (rs : Reg) (s : State) : Result :=
  load (effectiveAddress s rs offset) .half (fun s v => writeGpr s rd v) s

/-- LW, "Load word (signed)" (R125). -/
def execLw (rd : Reg) (offset : Imm) (rs : Reg) (s : State) : Result :=
  load (effectiveAddress s rs offset) .word (fun s v => writeGpr s rd (sextLow 32 v)) s

/-- LWU, "Load word (unsigned)" (R126). -/
def execLwu (rd : Reg) (offset : Imm) (rs : Reg) (s : State) : Result :=
  load (effectiveAddress s rs offset) .word (fun s v => writeGpr s rd v) s

/-- LD, "Load double-word" (R127). -/
def execLd (rd : Reg) (offset : Imm) (rs : Reg) (s : State) : Result :=
  load (effectiveAddress s rs offset) .dword (fun s v => writeGpr s rd v) s

/-- SB, "Store byte" (R128). -/
def execSb (rt : Reg) (offset : Imm) (rs : Reg) (s : State) : Result :=
  store (effectiveAddress s rs offset) .byte (readGpr s rt) s

/-- SH, "Store half-word" (R129). -/
def execSh (rt : Reg) (offset : Imm) (rs : Reg) (s : State) : Result :=
  store (effectiveAddress s rs offset) .half (readGpr s rt) s

/-- SW, "Store word" (R130). -/
def execSw (rt : Reg) (offset : Imm) (rs : Reg) (s : State) : Result :=
  store (effectiveAddress s rs offset) .word (readGpr s rt) s

/-- SD, "Store double-word" (R131). -/
def execSd (rt : Reg) (offset : Imm) (rs : Reg) (s : State) : Result :=
  store (effectiveAddress s rs offset) .dword (readGpr s rt) s

/-- L.S, "Load single-precision" (R132): bits 63..32 of FD become 0. -/
def execLS (fd : FReg) (offset : Imm) (rs : Reg) (s : State) : Result :=
  load (effectiveAddress s rs offset) .word (fun s v => writeFpr s fd v) s

/-- L.D, "Load double-precision" (R133). -/
def execLD (fd : FReg) (offset : Imm) (rs : Reg) (s : State) : Result :=
  load (effectiveAddress s rs offset) .dword (fun s v => writeFpr s fd v) s

/-- LUI, "Load upper immediate" (R134). -/
def execLui (rd : Reg) (imm : Imm) (s : State) : Result :=
  advance (writeGpr s rd (luiValue imm))

/-- S.S, "Store single-precision" (R135): bits 63..32 of FT are ignored. -/
def execSS (ft : FReg) (offset : Imm) (rs : Reg) (s : State) : Result :=
  store (effectiveAddress s rs offset) .word (readFpr s ft) s

/-- S.D, "Store double-precision" (R136). -/
def execSD (ft : FReg) (offset : Imm) (rs : Reg) (s : State) : Result :=
  store (effectiveAddress s rs offset) .dword (readFpr s ft) s

end Sys2Proof.Machine
end

