-- ==== Sys2Proof/Machine/Logical.lean ====
section
/-! DEFINITION. The logical instructions (spec/43_logical.md, R175). -/

namespace Sys2Proof.Machine

/-- AND, "Logical AND" (R176). -/
def execAnd (rd : Reg) (rs : Reg) (rt : Reg) (s : State) : Result :=
  advance (writeGpr s rd (readGpr s rs &&& readGpr s rt))

/-- OR, "Logical OR" (R177). -/
def execOr (rd : Reg) (rs : Reg) (rt : Reg) (s : State) : Result :=
  advance (writeGpr s rd (readGpr s rs ||| readGpr s rt))

/-- XOR, "Logical XOR" (R178). -/
def execXor (rd : Reg) (rs : Reg) (rt : Reg) (s : State) : Result :=
  advance (writeGpr s rd (readGpr s rs ^^^ readGpr s rt))

/-- NOR, "Logical NOR" (R179). -/
def execNor (rd : Reg) (rs : Reg) (rt : Reg) (s : State) : Result :=
  advance (writeGpr s rd (~~~(readGpr s rs ||| readGpr s rt)))

/-- ANDI, "Logical AND immediate" (R180). -/
def execAndi (rd : Reg) (rs : Reg) (imm : Imm) (s : State) : Result :=
  advance (writeGpr s rd (readGpr s rs &&& zextImm imm))

/-- ORI, "Logical OR immediate" (R181). -/
def execOri (rd : Reg) (rs : Reg) (imm : Imm) (s : State) : Result :=
  advance (writeGpr s rd (readGpr s rs ||| zextImm imm))

/-- XORI, "Logical XOR immediate" (R182). -/
def execXori (rd : Reg) (rs : Reg) (imm : Imm) (s : State) : Result :=
  advance (writeGpr s rd (readGpr s rs ^^^ zextImm imm))

end Sys2Proof.Machine
end

