-- ==== Sys2Proof/Machine/SetOnCondition.lean ====
section
/-! DEFINITION. The set-on-condition instructions (spec/46_set_on_condition.md, R215). -/

namespace Sys2Proof.Machine

/-- SLT, "Set if less than (Signed)" (R216). -/
def execSlt (rd : Reg) (rs : Reg) (rt : Reg) (s : State) : Result :=
  advance (writeGpr s rd (if (readGpr s rs).toInt < (readGpr s rt).toInt then 1 else 0))

/-- SLTU, "Set if less than (Unsigned)" (R217). -/
def execSltu (rd : Reg) (rs : Reg) (rt : Reg) (s : State) : Result :=
  advance (writeGpr s rd (if (readGpr s rs).toNat < (readGpr s rt).toNat then 1 else 0))

/-- SLTI, "Set if less than immediate (Signed)" (R218). -/
def execSlti (rd : Reg) (rs : Reg) (imm : Imm) (s : State) : Result :=
  advance (writeGpr s rd (if (readGpr s rs).toInt < (sextImm imm).toInt then 1 else 0))

/-- SLTIU, "Set if less than immediate (Unsigned)" (R219). -/
def execSltiu (rd : Reg) (rs : Reg) (imm : Imm) (s : State) : Result :=
  advance (writeGpr s rd (if (readGpr s rs).toNat < (sextImm imm).toNat then 1 else 0))

end Sys2Proof.Machine
end

