-- ==== Sys2Proof/Machine/Shift.lean ====
section
/-! DEFINITION. The shift instructions (spec/44_shift.md, R185): RS is shifted by RT[5:0] or by the 5-bit amount. -/

namespace Sys2Proof.Machine

/-- DSLLV, "Double-word shift left logical by variable" (R186). -/
def execDsllv (rd : Reg) (rs : Reg) (rt : Reg) (s : State) : Result :=
  advance (writeGpr s rd (readGpr s rs <<< shiftAmount (readGpr s rt)))

/-- DSRLV, "Double-word shift right logical by variable" (R187). -/
def execDsrlv (rd : Reg) (rs : Reg) (rt : Reg) (s : State) : Result :=
  advance (writeGpr s rd (readGpr s rs >>> shiftAmount (readGpr s rt)))

/-- DSRAV, "Double-word shift right arithmetic by variable" (R188). -/
def execDsrav (rd : Reg) (rs : Reg) (rt : Reg) (s : State) : Result :=
  advance (writeGpr s rd ((readGpr s rs).sshiftRight (shiftAmount (readGpr s rt))))

/-- DSLL, "Double-word shift left logical" (R189). -/
def execDsll (rd : Reg) (rs : Reg) (sa : Shamt) (s : State) : Result :=
  advance (writeGpr s rd (readGpr s rs <<< sa.toNat))

/-- DSRL, "Double-word shift right logical" (R190). -/
def execDsrl (rd : Reg) (rs : Reg) (sa : Shamt) (s : State) : Result :=
  advance (writeGpr s rd (readGpr s rs >>> sa.toNat))

/-- DSRA, "Double-word shift right arithmetic" (R191). -/
def execDsra (rd : Reg) (rs : Reg) (sa : Shamt) (s : State) : Result :=
  advance (writeGpr s rd ((readGpr s rs).sshiftRight sa.toNat))

end Sys2Proof.Machine
end

