-- ==== Sys2Proof/Machine/Special.lean ====
section
/-! DEFINITION. The special instructions (spec/48_special.md). -/

namespace Sys2Proof.Machine

/-- TRAP, "Transfer to operating at a vectored address" (R280); the code field is ignored (R111). -/
def execTrap (_code : TrapCode) (s : State) : Result :=
  raise .trap s

/-- ERET, "Return to user code from an exception; restore user mode" (R281); not in a delay slot (R196). -/
def execEret (s : State) : Result :=
  outsideSlot s <| kernelOnly s <|
    if erl s then .refused .eretWithErl else .next (exceptionReturn s)

/-- NOP, "No Operation" (R282). -/
def execNop (s : State) : Result :=
  advance s

end Sys2Proof.Machine
end

