-- ==== Sys2Proof/Machine/SpecialMove.lean ====
section
/-! DEFINITION. The special move instructions (spec/42_special_move.md). The privilege check of the c0 moves comes before the register
number (R160). -/

namespace Sys2Proof.Machine

/-- MFHI, "Move from hi" (R155). -/
def execMfhi (rd : Reg) (s : State) : Result :=
  advance (writeGpr s rd s.hi)

/-- MFLO, "Move from lo" (R156). -/
def execMflo (rd : Reg) (s : State) : Result :=
  advance (writeGpr s rd s.lo)

/-- MTHI, "Move to hi" (R157). -/
def execMthi (rs : Reg) (s : State) : Result :=
  advance (writeHiLo s (readGpr s rs) s.lo)

/-- MTLO, "Move to lo" (R158). -/
def execMtlo (rs : Reg) (s : State) : Result :=
  advance (writeHiLo s s.hi (readGpr s rs))

/-- MFC0, "Move from C0 to RD (32-bit)" (R161). -/
def execMfc0 (rd : Reg) (cs : CReg) (s : State) : Result :=
  kernelOnly s <|
    match readC0 s cs with
    | some (v, s') => advance (writeGpr s' rd (sextLow 32 v))
    | none => .refused .c0RegisterNotModelled

/-- MTC0, "Move to C0 from RS (32-bit)" (R162). -/
def execMtc0 (rs : Reg) (cd : CReg) (s : State) : Result :=
  kernelOnly s <|
    match writeC0Low s cd ((readGpr s rs).setWidth 32) with
    | some s' => advance s'
    | none => .refused .c0RegisterNotModelled

/-- DMFC0, "Move from C0 to RD (64-bit)" (R163). -/
def execDmfc0 (rd : Reg) (cs : CReg) (s : State) : Result :=
  kernelOnly s <|
    match readC0 s cs with
    | some (v, s') => advance (writeGpr s' rd v)
    | none => .refused .c0RegisterNotModelled

/-- DMTC0, "Move to C0 from RS (64-bit)" (R164). -/
def execDmtc0 (rs : Reg) (cd : CReg) (s : State) : Result :=
  kernelOnly s <|
    match writeC0 s cd (readGpr s rs) with
    | some s' => advance s'
    | none => .refused .c0RegisterNotModelled

/-- MFC1, "Move from FPR to GPR (32-bit)" (R165). -/
def execMfc1 (rd : Reg) (fs : FReg) (s : State) : Result :=
  advance (writeGpr s rd ((readFprLow s fs).signExtend 64))

/-- MTC1, "Move to FPR from GPR (32-bit)" (R166). -/
def execMtc1 (rs : Reg) (fd : FReg) (s : State) : Result :=
  advance (writeFprLow s fd ((readGpr s rs).setWidth 32))

/-- DMFC1, "Move from FPR to GPR (64-bit)" (R167). -/
def execDmfc1 (rd : Reg) (fs : FReg) (s : State) : Result :=
  advance (writeGpr s rd (readFpr s fs))

/-- DMTC1, "Move to FPR from GPR (64-bit)" (R168). -/
def execDmtc1 (rs : Reg) (fd : FReg) (s : State) : Result :=
  advance (writeFpr s fd (readGpr s rs))

/-- MOV.S, "Move from one Single Precision FPR to another" (R169). -/
def execMovS (fd : FReg) (fs : FReg) (s : State) : Result :=
  advance (writeFprLow s fd (readFprLow s fs))

/-- MOV.D, "Move from one Double Precision FPR to another" (R170). -/
def execMovD (fd : FReg) (fs : FReg) (s : State) : Result :=
  advance (writeFpr s fd (readFpr s fs))

end Sys2Proof.Machine
end

