-- ==== Sys2Proof/Machine/Dispatch.lean ====
section
/-! DEFINITION. The one match from an instruction to its meaning. -/

namespace Sys2Proof.Machine

def exec (i : Instr) (s : State) : Host.Outcome State Fault Refusal :=
  match i with
  -- load-store
  | .lb rd offset rs => Sys2Proof.Machine.execLb rd offset rs s
  | .lbu rd offset rs => Sys2Proof.Machine.execLbu rd offset rs s
  | .lh rd offset rs => Sys2Proof.Machine.execLh rd offset rs s
  | .lhu rd offset rs => Sys2Proof.Machine.execLhu rd offset rs s
  | .lw rd offset rs => Sys2Proof.Machine.execLw rd offset rs s
  | .lwu rd offset rs => Sys2Proof.Machine.execLwu rd offset rs s
  | .ld rd offset rs => Sys2Proof.Machine.execLd rd offset rs s
  | .sb rt offset rs => Sys2Proof.Machine.execSb rt offset rs s
  | .sh rt offset rs => Sys2Proof.Machine.execSh rt offset rs s
  | .sw rt offset rs => Sys2Proof.Machine.execSw rt offset rs s
  | .sd rt offset rs => Sys2Proof.Machine.execSd rt offset rs s
  | .lS fd offset rs => Sys2Proof.Machine.execLS fd offset rs s
  | .lD fd offset rs => Sys2Proof.Machine.execLD fd offset rs s
  | .lui rd imm => Sys2Proof.Machine.execLui rd imm s
  | .sS ft offset rs => Sys2Proof.Machine.execSS ft offset rs s
  | .sD ft offset rs => Sys2Proof.Machine.execSD ft offset rs s
  -- arithmetic
  | .daddu rd rs rt => Sys2Proof.Machine.execDaddu rd rs rt s
  | .daddiu rd rs imm => Sys2Proof.Machine.execDaddiu rd rs imm s
  | .dsubu rd rs rt => Sys2Proof.Machine.execDsubu rd rs rt s
  | .dmult rs rt => Sys2Proof.Machine.execDmult rs rt s
  | .dmultu rs rt => Sys2Proof.Machine.execDmultu rs rt s
  | .ddiv rs rt => Sys2Proof.Machine.execDdiv rs rt s
  | .ddivu rs rt => Sys2Proof.Machine.execDdivu rs rt s
  | .madd rs rt => Sys2Proof.Machine.execMadd rs rt s
  -- special move
  | .mfhi rd => Sys2Proof.Machine.execMfhi rd s
  | .mflo rd => Sys2Proof.Machine.execMflo rd s
  | .mthi rs => Sys2Proof.Machine.execMthi rs s
  | .mtlo rs => Sys2Proof.Machine.execMtlo rs s
  | .mfc0 rd cs => Sys2Proof.Machine.execMfc0 rd cs s
  | .mtc0 rs cd => Sys2Proof.Machine.execMtc0 rs cd s
  | .dmfc0 rd cs => Sys2Proof.Machine.execDmfc0 rd cs s
  | .dmtc0 rs cd => Sys2Proof.Machine.execDmtc0 rs cd s
  | .mfc1 rd fs => Sys2Proof.Machine.execMfc1 rd fs s
  | .mtc1 rs fd => Sys2Proof.Machine.execMtc1 rs fd s
  | .dmfc1 rd fs => Sys2Proof.Machine.execDmfc1 rd fs s
  | .dmtc1 rs fd => Sys2Proof.Machine.execDmtc1 rs fd s
  | .movS fd fs => Sys2Proof.Machine.execMovS fd fs s
  | .movD fd fs => Sys2Proof.Machine.execMovD fd fs s
  -- logical
  | .and rd rs rt => Sys2Proof.Machine.execAnd rd rs rt s
  | .or rd rs rt => Sys2Proof.Machine.execOr rd rs rt s
  | .xor rd rs rt => Sys2Proof.Machine.execXor rd rs rt s
  | .nor rd rs rt => Sys2Proof.Machine.execNor rd rs rt s
  | .andi rd rs imm => Sys2Proof.Machine.execAndi rd rs imm s
  | .ori rd rs imm => Sys2Proof.Machine.execOri rd rs imm s
  | .xori rd rs imm => Sys2Proof.Machine.execXori rd rs imm s
  -- shift
  | .dsllv rd rs rt => Sys2Proof.Machine.execDsllv rd rs rt s
  | .dsrlv rd rs rt => Sys2Proof.Machine.execDsrlv rd rs rt s
  | .dsrav rd rs rt => Sys2Proof.Machine.execDsrav rd rs rt s
  | .dsll rd rs sa => Sys2Proof.Machine.execDsll rd rs sa s
  | .dsrl rd rs sa => Sys2Proof.Machine.execDsrl rd rs sa s
  | .dsra rd rs sa => Sys2Proof.Machine.execDsra rd rs sa s
  -- control and transfer
  | .j index => Sys2Proof.Machine.execJ index s
  | .jr rs => Sys2Proof.Machine.execJr rs s
  | .jal index => Sys2Proof.Machine.execJal index s
  | .jalr rs => Sys2Proof.Machine.execJalr rs s
  | .blez rs offset => Sys2Proof.Machine.execBlez rs offset s
  | .bltz rs offset => Sys2Proof.Machine.execBltz rs offset s
  | .bgez rs offset => Sys2Proof.Machine.execBgez rs offset s
  | .bgtz rs offset => Sys2Proof.Machine.execBgtz rs offset s
  | .beq rs rt offset => Sys2Proof.Machine.execBeq rs rt offset s
  | .bne rs rt offset => Sys2Proof.Machine.execBne rs rt offset s
  | .movz rd rs rt => Sys2Proof.Machine.execMovz rd rs rt s
  | .movn rd rs rt => Sys2Proof.Machine.execMovn rd rs rt s
  -- set on condition
  | .slt rd rs rt => Sys2Proof.Machine.execSlt rd rs rt s
  | .sltu rd rs rt => Sys2Proof.Machine.execSltu rd rs rt s
  | .slti rd rs imm => Sys2Proof.Machine.execSlti rd rs imm s
  | .sltiu rd rs imm => Sys2Proof.Machine.execSltiu rd rs imm s
  -- floating point
  | .addD fd fs ft => Sys2Proof.Machine.execAddD fd fs ft s
  | .addS fd fs ft => Sys2Proof.Machine.execAddS fd fs ft s
  | .addPS fd fs ft => Sys2Proof.Machine.execAddPS fd fs ft s
  | .subD fd fs ft => Sys2Proof.Machine.execSubD fd fs ft s
  | .subS fd fs ft => Sys2Proof.Machine.execSubS fd fs ft s
  | .subPS fd fs ft => Sys2Proof.Machine.execSubPS fd fs ft s
  | .mulD fd fs ft => Sys2Proof.Machine.execMulD fd fs ft s
  | .mulS fd fs ft => Sys2Proof.Machine.execMulS fd fs ft s
  | .mulPS fd fs ft => Sys2Proof.Machine.execMulPS fd fs ft s
  | .divD fd fs ft => Sys2Proof.Machine.execDivD fd fs ft s
  | .divS fd fs ft => Sys2Proof.Machine.execDivS fd fs ft s
  | .divPS fd fs ft => Sys2Proof.Machine.execDivPS fd fs ft s
  | .maddD fd fr fs ft => Sys2Proof.Machine.execMaddD fd fr fs ft s
  | .maddS fd fr fs ft => Sys2Proof.Machine.execMaddS fd fr fs ft s
  | .maddPS fd fr fs ft => Sys2Proof.Machine.execMaddPS fd fr fs ft s
  | .cvtSD fd fs => Sys2Proof.Machine.execCvtSD fd fs s
  | .cvtSW fd fs => Sys2Proof.Machine.execCvtSW fd fs s
  | .cvtSL fd fs => Sys2Proof.Machine.execCvtSL fd fs s
  | .cvtDS fd fs => Sys2Proof.Machine.execCvtDS fd fs s
  | .cvtDW fd fs => Sys2Proof.Machine.execCvtDW fd fs s
  | .cvtDL fd fs => Sys2Proof.Machine.execCvtDL fd fs s
  | .cvtWS fd fs => Sys2Proof.Machine.execCvtWS fd fs s
  | .cvtWD fd fs => Sys2Proof.Machine.execCvtWD fd fs s
  | .cvtLS fd fs => Sys2Proof.Machine.execCvtLS fd fs s
  | .cvtLD fd fs => Sys2Proof.Machine.execCvtLD fd fs s
  | .cLtS cc fs ft => Sys2Proof.Machine.execCLtS cc fs ft s
  | .cLeS cc fs ft => Sys2Proof.Machine.execCLeS cc fs ft s
  | .cGtS cc fs ft => Sys2Proof.Machine.execCGtS cc fs ft s
  | .cGeS cc fs ft => Sys2Proof.Machine.execCGeS cc fs ft s
  | .cEqS cc fs ft => Sys2Proof.Machine.execCEqS cc fs ft s
  | .cNeS cc fs ft => Sys2Proof.Machine.execCNeS cc fs ft s
  | .cLtD cc fs ft => Sys2Proof.Machine.execCLtD cc fs ft s
  | .cLeD cc fs ft => Sys2Proof.Machine.execCLeD cc fs ft s
  | .cGtD cc fs ft => Sys2Proof.Machine.execCGtD cc fs ft s
  | .cGeD cc fs ft => Sys2Proof.Machine.execCGeD cc fs ft s
  | .cEqD cc fs ft => Sys2Proof.Machine.execCEqD cc fs ft s
  | .cNeD cc fs ft => Sys2Proof.Machine.execCNeD cc fs ft s
  | .bc1t cc offset => Sys2Proof.Machine.execBc1t cc offset s
  | .bc1f cc offset => Sys2Proof.Machine.execBc1f cc offset s
  -- special
  | .trap code => Sys2Proof.Machine.execTrap code s
  | .eret => Sys2Proof.Machine.execEret s
  | .nop => Sys2Proof.Machine.execNop s

end Sys2Proof.Machine
end

