-- ==== Sys2Proof/WellFormed.lean ====
section
/-! DEFINITION. Which instructions a 32-bit word can stand for (spec/30_encoding.md R101, R103). Every field of `Instr` has
exactly the width of its operand, so register numbers, condition codes, shift amounts and immediates need no check. -/

namespace Sys2Proof

/-- C.NE has no binary encoding; every other instruction has a word (R103). -/
def Instr.hasWord : Instr → Bool
  | .cNeS _ _ _ => false
  | .cNeD _ _ _ => false
  | _ => true

/-- C.GT and C.GE are assembled as C.LT and C.LE with the sources exchanged, and no word decodes to them (R101, R103). -/
def Instr.assembleOnly : Instr → Bool
  | .cGtS _ _ _ => true
  | .cGeS _ _ _ => true
  | .cGtD _ _ _ => true
  | .cGeD _ _ _ => true
  | _ => false

/-- An instruction of the binary level: one that some word decodes to. The others have a meaning too, at the assembly level,
where the program is a map from addresses to instructions (R6, R68). -/
def Instr.wellFormed (i : Instr) : Bool := i.hasWord && !i.assembleOnly

end Sys2Proof
end

