-- ==== Sys2Proof/Decode.lean ====
section
/-! DEFINITION. The binary level: the decoder, built from Table 30-2 as spec/30_encoding.md R101 reads it, and after it the
encoder, written from the formats of Table 30-1 and the role-to-field mapping of R94. -/

namespace Sys2Proof

/-- Why bytes are no instruction. -/
inductive Reject where
  /-- Fewer than the 4 bytes of an instruction (R90). -/
  | tooShort
  /-- The word matches no decodable row of Table 30-2 (R104, R105). -/
  | wordOutsideCard
  deriving DecidableEq, Repr

-- The binary fields of Table 30-1 (R91), named for their binary positions.

/-- Binary rs, and fr of COP1X. -/
def fieldRs (w : IWord) : BitVec 5 := w.extractLsb' 21 5
/-- Binary rt, and ft. -/
def fieldRt (w : IWord) : BitVec 5 := w.extractLsb' 16 5
/-- Binary rd, fs, and the c0 register number. -/
def fieldRd (w : IWord) : BitVec 5 := w.extractLsb' 11 5
/-- Binary sa, and fd. -/
def fieldSa (w : IWord) : BitVec 5 := w.extractLsb' 6 5
/-- The 16-bit immediate or offset. -/
def fieldImm (w : IWord) : Imm := w.extractLsb' 0 16
/-- The jump field. -/
def fieldIndex (w : IWord) : JField := w.extractLsb' 0 26
/-- The code field of TRAP. -/
def fieldCode (w : IWord) : TrapCode := w.extractLsb' 6 20
/-- cc of the compares. -/
def fieldCompareCc (w : IWord) : Cc := w.extractLsb' 8 3
/-- cc of BC1T and BC1F. -/
def fieldBranchCc (w : IWord) : Cc := w.extractLsb' 18 3

/-- A decodable row of Table 30-2: a word w is the instruction when w and `mask` give `pattern` (R91); `build` reads its
operands by R94. -/
structure OpcodeRow where
  mnemonic : String
  pattern : IWord
  mask : IWord
  build : IWord → Instr

/-- w matches the row (R91). -/
def OpcodeRow.matches (r : OpcodeRow) (w : IWord) : Bool := w &&& r.mask == r.pattern

/-- The decodable load-store rows of Table 30-2 (R100). -/
def rowsLoadStore : List OpcodeRow := [
  ⟨"LB", 0x80000000, 0xFC000000, fun w => .lb (fieldRt w) (fieldImm w) (fieldRs w)⟩,
  ⟨"LBU", 0x90000000, 0xFC000000, fun w => .lbu (fieldRt w) (fieldImm w) (fieldRs w)⟩,
  ⟨"LH", 0x84000000, 0xFC000000, fun w => .lh (fieldRt w) (fieldImm w) (fieldRs w)⟩,
  ⟨"LHU", 0x94000000, 0xFC000000, fun w => .lhu (fieldRt w) (fieldImm w) (fieldRs w)⟩,
  ⟨"LW", 0x8C000000, 0xFC000000, fun w => .lw (fieldRt w) (fieldImm w) (fieldRs w)⟩,
  ⟨"LWU", 0x9C000000, 0xFC000000, fun w => .lwu (fieldRt w) (fieldImm w) (fieldRs w)⟩,
  ⟨"LD", 0xDC000000, 0xFC000000, fun w => .ld (fieldRt w) (fieldImm w) (fieldRs w)⟩,
  ⟨"SB", 0xA0000000, 0xFC000000, fun w => .sb (fieldRt w) (fieldImm w) (fieldRs w)⟩,
  ⟨"SH", 0xA4000000, 0xFC000000, fun w => .sh (fieldRt w) (fieldImm w) (fieldRs w)⟩,
  ⟨"SW", 0xAC000000, 0xFC000000, fun w => .sw (fieldRt w) (fieldImm w) (fieldRs w)⟩,
  ⟨"SD", 0xFC000000, 0xFC000000, fun w => .sd (fieldRt w) (fieldImm w) (fieldRs w)⟩,
  ⟨"L.S", 0xC4000000, 0xFC000000, fun w => .lS (fieldRt w) (fieldImm w) (fieldRs w)⟩,
  ⟨"L.D", 0xD4000000, 0xFC000000, fun w => .lD (fieldRt w) (fieldImm w) (fieldRs w)⟩,
  ⟨"LUI", 0x3C000000, 0xFFE00000, fun w => .lui (fieldRt w) (fieldImm w)⟩,
  ⟨"S.S", 0xE4000000, 0xFC000000, fun w => .sS (fieldRt w) (fieldImm w) (fieldRs w)⟩,
  ⟨"S.D", 0xF4000000, 0xFC000000, fun w => .sD (fieldRt w) (fieldImm w) (fieldRs w)⟩]

/-- The decodable arithmetic rows of Table 30-2 (R100). -/
def rowsArithmetic : List OpcodeRow := [
  ⟨"DADDU", 0x0000002D, 0xFC0007FF, fun w => .daddu (fieldRd w) (fieldRs w) (fieldRt w)⟩,
  ⟨"DADDIU", 0x64000000, 0xFC000000, fun w => .daddiu (fieldRt w) (fieldRs w) (fieldImm w)⟩,
  ⟨"DSUBU", 0x0000002F, 0xFC0007FF, fun w => .dsubu (fieldRd w) (fieldRs w) (fieldRt w)⟩,
  ⟨"DMULT", 0x0000001C, 0xFC00FFFF, fun w => .dmult (fieldRs w) (fieldRt w)⟩,
  ⟨"DMULTU", 0x0000001D, 0xFC00FFFF, fun w => .dmultu (fieldRs w) (fieldRt w)⟩,
  ⟨"DDIV", 0x0000001E, 0xFC00FFFF, fun w => .ddiv (fieldRs w) (fieldRt w)⟩,
  ⟨"DDIVU", 0x0000001F, 0xFC00FFFF, fun w => .ddivu (fieldRs w) (fieldRt w)⟩,
  ⟨"MADD", 0x70000000, 0xFC00FFFF, fun w => .madd (fieldRs w) (fieldRt w)⟩]

/-- The decodable special move rows of Table 30-2 (R100). -/
def rowsSpecialMove : List OpcodeRow := [
  ⟨"MFHI", 0x00000010, 0xFFFF07FF, fun w => .mfhi (fieldRd w)⟩,
  ⟨"MFLO", 0x00000012, 0xFFFF07FF, fun w => .mflo (fieldRd w)⟩,
  ⟨"MTHI", 0x00000011, 0xFC1FFFFF, fun w => .mthi (fieldRs w)⟩,
  ⟨"MTLO", 0x00000013, 0xFC1FFFFF, fun w => .mtlo (fieldRs w)⟩,
  ⟨"MFC0", 0x40000000, 0xFFE007FF, fun w => .mfc0 (fieldRt w) (fieldRd w)⟩,
  ⟨"MTC0", 0x40800000, 0xFFE007FF, fun w => .mtc0 (fieldRt w) (fieldRd w)⟩,
  ⟨"DMFC0", 0x40200000, 0xFFE007FF, fun w => .dmfc0 (fieldRt w) (fieldRd w)⟩,
  ⟨"DMTC0", 0x40A00000, 0xFFE007FF, fun w => .dmtc0 (fieldRt w) (fieldRd w)⟩,
  ⟨"MFC1", 0x44000000, 0xFFE007FF, fun w => .mfc1 (fieldRt w) (fieldRd w)⟩,
  ⟨"MTC1", 0x44800000, 0xFFE007FF, fun w => .mtc1 (fieldRt w) (fieldRd w)⟩,
  ⟨"DMFC1", 0x44200000, 0xFFE007FF, fun w => .dmfc1 (fieldRt w) (fieldRd w)⟩,
  ⟨"DMTC1", 0x44A00000, 0xFFE007FF, fun w => .dmtc1 (fieldRt w) (fieldRd w)⟩,
  ⟨"MOV.S", 0x46000006, 0xFFFF003F, fun w => .movS (fieldSa w) (fieldRd w)⟩,
  ⟨"MOV.D", 0x46200006, 0xFFFF003F, fun w => .movD (fieldSa w) (fieldRd w)⟩]

/-- The decodable logical rows of Table 30-2 (R100). -/
def rowsLogical : List OpcodeRow := [
  ⟨"AND", 0x00000024, 0xFC0007FF, fun w => .and (fieldRd w) (fieldRs w) (fieldRt w)⟩,
  ⟨"OR", 0x00000025, 0xFC0007FF, fun w => .or (fieldRd w) (fieldRs w) (fieldRt w)⟩,
  ⟨"XOR", 0x00000026, 0xFC0007FF, fun w => .xor (fieldRd w) (fieldRs w) (fieldRt w)⟩,
  ⟨"NOR", 0x00000027, 0xFC0007FF, fun w => .nor (fieldRd w) (fieldRs w) (fieldRt w)⟩,
  ⟨"ANDI", 0x30000000, 0xFC000000, fun w => .andi (fieldRt w) (fieldRs w) (fieldImm w)⟩,
  ⟨"ORI", 0x34000000, 0xFC000000, fun w => .ori (fieldRt w) (fieldRs w) (fieldImm w)⟩,
  ⟨"XORI", 0x38000000, 0xFC000000, fun w => .xori (fieldRt w) (fieldRs w) (fieldImm w)⟩]

/-- The decodable shift rows of Table 30-2 (R100). -/
def rowsShift : List OpcodeRow := [
  ⟨"DSLLV", 0x00000014, 0xFC0007FF, fun w => .dsllv (fieldRd w) (fieldRt w) (fieldRs w)⟩,
  ⟨"DSRLV", 0x00000016, 0xFC0007FF, fun w => .dsrlv (fieldRd w) (fieldRt w) (fieldRs w)⟩,
  ⟨"DSRAV", 0x00000017, 0xFC0007FF, fun w => .dsrav (fieldRd w) (fieldRt w) (fieldRs w)⟩,
  ⟨"DSLL", 0x00000038, 0xFFE0003F, fun w => .dsll (fieldRd w) (fieldRt w) (fieldSa w)⟩,
  ⟨"DSRL", 0x0000003A, 0xFFE0003F, fun w => .dsrl (fieldRd w) (fieldRt w) (fieldSa w)⟩,
  ⟨"DSRA", 0x0000003B, 0xFFE0003F, fun w => .dsra (fieldRd w) (fieldRt w) (fieldSa w)⟩]

/-- The decodable control and transfer rows of Table 30-2 (R100). -/
def rowsControl : List OpcodeRow := [
  ⟨"J", 0x08000000, 0xFC000000, fun w => .j (fieldIndex w)⟩,
  ⟨"JR", 0x00000008, 0xFC1FFFFF, fun w => .jr (fieldRs w)⟩,
  ⟨"JAL", 0x0C000000, 0xFC000000, fun w => .jal (fieldIndex w)⟩,
  ⟨"JALR", 0x0000F809, 0xFC1FFFFF, fun w => .jalr (fieldRs w)⟩,
  ⟨"BLEZ", 0x18000000, 0xFC1F0000, fun w => .blez (fieldRs w) (fieldImm w)⟩,
  ⟨"BLTZ", 0x04000000, 0xFC1F0000, fun w => .bltz (fieldRs w) (fieldImm w)⟩,
  ⟨"BGEZ", 0x04010000, 0xFC1F0000, fun w => .bgez (fieldRs w) (fieldImm w)⟩,
  ⟨"BGTZ", 0x1C000000, 0xFC1F0000, fun w => .bgtz (fieldRs w) (fieldImm w)⟩,
  ⟨"BEQ", 0x10000000, 0xFC000000, fun w => .beq (fieldRs w) (fieldRt w) (fieldImm w)⟩,
  ⟨"BNE", 0x14000000, 0xFC000000, fun w => .bne (fieldRs w) (fieldRt w) (fieldImm w)⟩,
  ⟨"MOVZ", 0x0000000A, 0xFC0007FF, fun w => .movz (fieldRd w) (fieldRs w) (fieldRt w)⟩,
  ⟨"MOVN", 0x0000000B, 0xFC0007FF, fun w => .movn (fieldRd w) (fieldRs w) (fieldRt w)⟩]

/-- The decodable set on condition rows of Table 30-2 (R100). -/
def rowsSetOnCondition : List OpcodeRow := [
  ⟨"SLT", 0x0000002A, 0xFC0007FF, fun w => .slt (fieldRd w) (fieldRs w) (fieldRt w)⟩,
  ⟨"SLTU", 0x0000002B, 0xFC0007FF, fun w => .sltu (fieldRd w) (fieldRs w) (fieldRt w)⟩,
  ⟨"SLTI", 0x28000000, 0xFC000000, fun w => .slti (fieldRt w) (fieldRs w) (fieldImm w)⟩,
  ⟨"SLTIU", 0x2C000000, 0xFC000000, fun w => .sltiu (fieldRt w) (fieldRs w) (fieldImm w)⟩]

/-- The decodable floating point rows of Table 30-2 (R100). -/
def rowsFloat : List OpcodeRow := [
  ⟨"ADD.D", 0x46200000, 0xFFE0003F, fun w => .addD (fieldSa w) (fieldRd w) (fieldRt w)⟩,
  ⟨"ADD.S", 0x46000000, 0xFFE0003F, fun w => .addS (fieldSa w) (fieldRd w) (fieldRt w)⟩,
  ⟨"ADD.PS", 0x46C00000, 0xFFE0003F, fun w => .addPS (fieldSa w) (fieldRd w) (fieldRt w)⟩,
  ⟨"SUB.D", 0x46200001, 0xFFE0003F, fun w => .subD (fieldSa w) (fieldRd w) (fieldRt w)⟩,
  ⟨"SUB.S", 0x46000001, 0xFFE0003F, fun w => .subS (fieldSa w) (fieldRd w) (fieldRt w)⟩,
  ⟨"SUB.PS", 0x46C00001, 0xFFE0003F, fun w => .subPS (fieldSa w) (fieldRd w) (fieldRt w)⟩,
  ⟨"MUL.D", 0x46200002, 0xFFE0003F, fun w => .mulD (fieldSa w) (fieldRd w) (fieldRt w)⟩,
  ⟨"MUL.S", 0x46000002, 0xFFE0003F, fun w => .mulS (fieldSa w) (fieldRd w) (fieldRt w)⟩,
  ⟨"MUL.PS", 0x46C00002, 0xFFE0003F, fun w => .mulPS (fieldSa w) (fieldRd w) (fieldRt w)⟩,
  ⟨"DIV.D", 0x46200003, 0xFFE0003F, fun w => .divD (fieldSa w) (fieldRd w) (fieldRt w)⟩,
  ⟨"DIV.S", 0x46000003, 0xFFE0003F, fun w => .divS (fieldSa w) (fieldRd w) (fieldRt w)⟩,
  ⟨"DIV.PS", 0x46C00003, 0xFFE0003F, fun w => .divPS (fieldSa w) (fieldRd w) (fieldRt w)⟩,
  ⟨"MADD.D", 0x4C000021, 0xFC00003F, fun w => .maddD (fieldSa w) (fieldRs w) (fieldRd w) (fieldRt w)⟩,
  ⟨"MADD.S", 0x4C000020, 0xFC00003F, fun w => .maddS (fieldSa w) (fieldRs w) (fieldRd w) (fieldRt w)⟩,
  ⟨"MADD.PS", 0x4C000026, 0xFC00003F, fun w => .maddPS (fieldSa w) (fieldRs w) (fieldRd w) (fieldRt w)⟩,
  ⟨"CVT.S.D", 0x46200020, 0xFFFF003F, fun w => .cvtSD (fieldSa w) (fieldRd w)⟩,
  ⟨"CVT.S.W", 0x46800020, 0xFFFF003F, fun w => .cvtSW (fieldSa w) (fieldRd w)⟩,
  ⟨"CVT.S.L", 0x46A00020, 0xFFFF003F, fun w => .cvtSL (fieldSa w) (fieldRd w)⟩,
  ⟨"CVT.D.S", 0x46000021, 0xFFFF003F, fun w => .cvtDS (fieldSa w) (fieldRd w)⟩,
  ⟨"CVT.D.W", 0x46800021, 0xFFFF003F, fun w => .cvtDW (fieldSa w) (fieldRd w)⟩,
  ⟨"CVT.D.L", 0x46A00021, 0xFFFF003F, fun w => .cvtDL (fieldSa w) (fieldRd w)⟩,
  ⟨"CVT.W.S", 0x46000024, 0xFFFF003F, fun w => .cvtWS (fieldSa w) (fieldRd w)⟩,
  ⟨"CVT.W.D", 0x46200024, 0xFFFF003F, fun w => .cvtWD (fieldSa w) (fieldRd w)⟩,
  ⟨"CVT.L.S", 0x46000025, 0xFFFF003F, fun w => .cvtLS (fieldSa w) (fieldRd w)⟩,
  ⟨"CVT.L.D", 0x46200025, 0xFFFF003F, fun w => .cvtLD (fieldSa w) (fieldRd w)⟩,
  ⟨"C.LT.S", 0x4600003C, 0xFFE000FF, fun w => .cLtS (fieldCompareCc w) (fieldRd w) (fieldRt w)⟩,
  ⟨"C.LE.S", 0x4600003E, 0xFFE000FF, fun w => .cLeS (fieldCompareCc w) (fieldRd w) (fieldRt w)⟩,
  ⟨"C.EQ.S", 0x46000032, 0xFFE000FF, fun w => .cEqS (fieldCompareCc w) (fieldRd w) (fieldRt w)⟩,
  ⟨"C.LT.D", 0x4620003C, 0xFFE000FF, fun w => .cLtD (fieldCompareCc w) (fieldRd w) (fieldRt w)⟩,
  ⟨"C.LE.D", 0x4620003E, 0xFFE000FF, fun w => .cLeD (fieldCompareCc w) (fieldRd w) (fieldRt w)⟩,
  ⟨"C.EQ.D", 0x46200032, 0xFFE000FF, fun w => .cEqD (fieldCompareCc w) (fieldRd w) (fieldRt w)⟩,
  ⟨"BC1T", 0x45010000, 0xFFE30000, fun w => .bc1t (fieldBranchCc w) (fieldImm w)⟩,
  ⟨"BC1F", 0x45000000, 0xFFE30000, fun w => .bc1f (fieldBranchCc w) (fieldImm w)⟩]

/-- The decodable special rows of Table 30-2 (R100). -/
def rowsSpecial : List OpcodeRow := [
  ⟨"TRAP", 0x0000000C, 0xFC00003F, fun w => .trap (fieldCode w)⟩,
  ⟨"ERET", 0x42000018, 0xFFFFFFFF, fun _ => .eret⟩,
  ⟨"NOP", 0x00000000, 0xFFFFFFFF, fun _ => .nop⟩]

/-- The rows a decoder tests: all but the two without an encoding and the four that are only assembled (R101). -/
def opcodeRows : List OpcodeRow :=
  rowsLoadStore ++ rowsArithmetic ++ rowsSpecialMove ++ rowsLogical ++ rowsShift ++ rowsControl ++ rowsSetOnCondition ++ rowsFloat ++ rowsSpecial

/-- The instruction of a word, or the refusal of R104. -/
def decode (w : IWord) : Except Reject Instr :=
  match opcodeRows.find? (fun r => r.matches w) with
  | some r => .ok (r.build w)
  | none => .error .wordOutsideCard

/-- Four bytes, lowest address first, as an instruction word (R63, R90). -/
def wordOfBytes (e : Endian) (b0 b1 b2 b3 : Byte) : IWord :=
  match e with
  | .big => b0 ++ b1 ++ b2 ++ b3
  | .little => b3 ++ b2 ++ b1 ++ b0

/-- The bytes of an instruction word, lowest address first (R63). -/
def bytesOfWord (e : Endian) (w : IWord) : List Byte :=
  let le := [w.extractLsb' 0 8, w.extractLsb' 8 8, w.extractLsb' 16 8, w.extractLsb' 24 8]
  match e with
  | .big => le.reverse
  | .little => le

/-- The first instruction of a list of bytes and the bytes after it: total on any bytes. -/
def decodeBytes (e : Endian) : List Byte → Except Reject (Instr × List Byte)
  | b0 :: b1 :: b2 :: b3 :: rest =>
    match decode (wordOfBytes e b0 b1 b2 b3) with
    | .ok i => .ok (i, rest)
    | .error r => .error r
  | _ => .error .tooShort

/-- The instruction the decoder reads from an instruction whose bits are `w`, numbered as spec/opcode_table.json numbers them;
the bits at `nbits` and above are 0. The word is laid out in bytes, and the order of the bytes does not matter here. -/
def decodeTableWord (nbits w : Nat) : Option Instr :=
  match decodeBytes .big (bytesOfWord .big (BitVec.ofNat 32 (w % 2 ^ nbits))) with
  | .ok (i, _) => some i
  | .error _ => none

-- The formats of Table 30-1 (R91).

/-- R, R-SPECIAL2, COP0-move, COP1-move, FP-R and COP1X: six fields. -/
def rWord (opcode : BitVec 6) (rs rt rd sa : BitVec 5) (funct : BitVec 6) : IWord :=
  opcode ++ rs ++ rt ++ rd ++ sa ++ funct

/-- I, I-FP and REGIMM. -/
def iWord (opcode : BitVec 6) (rs rt : BitVec 5) (imm : Imm) : IWord :=
  opcode ++ rs ++ rt ++ imm

/-- J. -/
def jWord (opcode : BitVec 6) (index : JField) : IWord :=
  opcode ++ index

/-- TRAP: SPECIAL, code, funct 001100 (R111). -/
def trapWord (code : TrapCode) : IWord :=
  0b000000#6 ++ code ++ 0b001100#6

/-- COP0-CO. -/
def coWord (funct : BitVec 6) : IWord :=
  0b010000#6 ++ 0b1#1 ++ 0#19 ++ funct

/-- FP-compare. -/
def compareWord (fmt ft fs : BitVec 5) (cc : Cc) (cond : BitVec 4) : IWord :=
  0b010001#6 ++ fmt ++ ft ++ fs ++ cc ++ 0b00#2 ++ 0b11#2 ++ cond

/-- FP-branch: nd is 0. -/
def fpBranchWord (cc : Cc) (tf : BitVec 1) (offset : Imm) : IWord :=
  0b010001#6 ++ 0b01000#5 ++ cc ++ 0b0#1 ++ tf ++ offset

/-- The word of an instruction; `none` for C.NE, which has none, and the exchanged C.LT or C.LE word for C.GT and C.GE
(R100, R103). -/
def encode : Instr → Option IWord
  | .lb rd offset rs => some (iWord 0b100000#6 rs rd offset)
  | .lbu rd offset rs => some (iWord 0b100100#6 rs rd offset)
  | .lh rd offset rs => some (iWord 0b100001#6 rs rd offset)
  | .lhu rd offset rs => some (iWord 0b100101#6 rs rd offset)
  | .lw rd offset rs => some (iWord 0b100011#6 rs rd offset)
  | .lwu rd offset rs => some (iWord 0b100111#6 rs rd offset)
  | .ld rd offset rs => some (iWord 0b110111#6 rs rd offset)
  | .sb rt offset rs => some (iWord 0b101000#6 rs rt offset)
  | .sh rt offset rs => some (iWord 0b101001#6 rs rt offset)
  | .sw rt offset rs => some (iWord 0b101011#6 rs rt offset)
  | .sd rt offset rs => some (iWord 0b111111#6 rs rt offset)
  | .lS fd offset rs => some (iWord 0b110001#6 rs fd offset)
  | .lD fd offset rs => some (iWord 0b110101#6 rs fd offset)
  | .lui rd imm => some (iWord 0b001111#6 0b00000#5 rd imm)
  | .sS ft offset rs => some (iWord 0b111001#6 rs ft offset)
  | .sD ft offset rs => some (iWord 0b111101#6 rs ft offset)
  | .daddu rd rs rt => some (rWord 0b000000#6 rs rt rd 0b00000#5 0b101101#6)
  | .daddiu rd rs imm => some (iWord 0b011001#6 rs rd imm)
  | .dsubu rd rs rt => some (rWord 0b000000#6 rs rt rd 0b00000#5 0b101111#6)
  | .dmult rs rt => some (rWord 0b000000#6 rs rt 0b00000#5 0b00000#5 0b011100#6)
  | .dmultu rs rt => some (rWord 0b000000#6 rs rt 0b00000#5 0b00000#5 0b011101#6)
  | .ddiv rs rt => some (rWord 0b000000#6 rs rt 0b00000#5 0b00000#5 0b011110#6)
  | .ddivu rs rt => some (rWord 0b000000#6 rs rt 0b00000#5 0b00000#5 0b011111#6)
  | .madd rs rt => some (rWord 0b011100#6 rs rt 0b00000#5 0b00000#5 0b000000#6)
  | .mfhi rd => some (rWord 0b000000#6 0b00000#5 0b00000#5 rd 0b00000#5 0b010000#6)
  | .mflo rd => some (rWord 0b000000#6 0b00000#5 0b00000#5 rd 0b00000#5 0b010010#6)
  | .mthi rs => some (rWord 0b000000#6 rs 0b00000#5 0b00000#5 0b00000#5 0b010001#6)
  | .mtlo rs => some (rWord 0b000000#6 rs 0b00000#5 0b00000#5 0b00000#5 0b010011#6)
  | .mfc0 rd cs => some (rWord 0b010000#6 0b00000#5 rd cs 0b00000#5 0b000000#6)
  | .mtc0 rs cd => some (rWord 0b010000#6 0b00100#5 rs cd 0b00000#5 0b000000#6)
  | .dmfc0 rd cs => some (rWord 0b010000#6 0b00001#5 rd cs 0b00000#5 0b000000#6)
  | .dmtc0 rs cd => some (rWord 0b010000#6 0b00101#5 rs cd 0b00000#5 0b000000#6)
  | .mfc1 rd fs => some (rWord 0b010001#6 0b00000#5 rd fs 0b00000#5 0b000000#6)
  | .mtc1 rs fd => some (rWord 0b010001#6 0b00100#5 rs fd 0b00000#5 0b000000#6)
  | .dmfc1 rd fs => some (rWord 0b010001#6 0b00001#5 rd fs 0b00000#5 0b000000#6)
  | .dmtc1 rs fd => some (rWord 0b010001#6 0b00101#5 rs fd 0b00000#5 0b000000#6)
  | .movS fd fs => some (rWord 0b010001#6 0b10000#5 0b00000#5 fs fd 0b000110#6)
  | .movD fd fs => some (rWord 0b010001#6 0b10001#5 0b00000#5 fs fd 0b000110#6)
  | .and rd rs rt => some (rWord 0b000000#6 rs rt rd 0b00000#5 0b100100#6)
  | .or rd rs rt => some (rWord 0b000000#6 rs rt rd 0b00000#5 0b100101#6)
  | .xor rd rs rt => some (rWord 0b000000#6 rs rt rd 0b00000#5 0b100110#6)
  | .nor rd rs rt => some (rWord 0b000000#6 rs rt rd 0b00000#5 0b100111#6)
  | .andi rd rs imm => some (iWord 0b001100#6 rs rd imm)
  | .ori rd rs imm => some (iWord 0b001101#6 rs rd imm)
  | .xori rd rs imm => some (iWord 0b001110#6 rs rd imm)
  | .dsllv rd rs rt => some (rWord 0b000000#6 rt rs rd 0b00000#5 0b010100#6)
  | .dsrlv rd rs rt => some (rWord 0b000000#6 rt rs rd 0b00000#5 0b010110#6)
  | .dsrav rd rs rt => some (rWord 0b000000#6 rt rs rd 0b00000#5 0b010111#6)
  | .dsll rd rs sa => some (rWord 0b000000#6 0b00000#5 rs rd sa 0b111000#6)
  | .dsrl rd rs sa => some (rWord 0b000000#6 0b00000#5 rs rd sa 0b111010#6)
  | .dsra rd rs sa => some (rWord 0b000000#6 0b00000#5 rs rd sa 0b111011#6)
  | .j index => some (jWord 0b000010#6 index)
  | .jr rs => some (rWord 0b000000#6 rs 0b00000#5 0b00000#5 0b00000#5 0b001000#6)
  | .jal index => some (jWord 0b000011#6 index)
  | .jalr rs => some (rWord 0b000000#6 rs 0b00000#5 0b11111#5 0b00000#5 0b001001#6)
  | .blez rs offset => some (iWord 0b000110#6 rs 0b00000#5 offset)
  | .bltz rs offset => some (iWord 0b000001#6 rs 0b00000#5 offset)
  | .bgez rs offset => some (iWord 0b000001#6 rs 0b00001#5 offset)
  | .bgtz rs offset => some (iWord 0b000111#6 rs 0b00000#5 offset)
  | .beq rs rt offset => some (iWord 0b000100#6 rs rt offset)
  | .bne rs rt offset => some (iWord 0b000101#6 rs rt offset)
  | .movz rd rs rt => some (rWord 0b000000#6 rs rt rd 0b00000#5 0b001010#6)
  | .movn rd rs rt => some (rWord 0b000000#6 rs rt rd 0b00000#5 0b001011#6)
  | .slt rd rs rt => some (rWord 0b000000#6 rs rt rd 0b00000#5 0b101010#6)
  | .sltu rd rs rt => some (rWord 0b000000#6 rs rt rd 0b00000#5 0b101011#6)
  | .slti rd rs imm => some (iWord 0b001010#6 rs rd imm)
  | .sltiu rd rs imm => some (iWord 0b001011#6 rs rd imm)
  | .addD fd fs ft => some (rWord 0b010001#6 0b10001#5 ft fs fd 0b000000#6)
  | .addS fd fs ft => some (rWord 0b010001#6 0b10000#5 ft fs fd 0b000000#6)
  | .addPS fd fs ft => some (rWord 0b010001#6 0b10110#5 ft fs fd 0b000000#6)
  | .subD fd fs ft => some (rWord 0b010001#6 0b10001#5 ft fs fd 0b000001#6)
  | .subS fd fs ft => some (rWord 0b010001#6 0b10000#5 ft fs fd 0b000001#6)
  | .subPS fd fs ft => some (rWord 0b010001#6 0b10110#5 ft fs fd 0b000001#6)
  | .mulD fd fs ft => some (rWord 0b010001#6 0b10001#5 ft fs fd 0b000010#6)
  | .mulS fd fs ft => some (rWord 0b010001#6 0b10000#5 ft fs fd 0b000010#6)
  | .mulPS fd fs ft => some (rWord 0b010001#6 0b10110#5 ft fs fd 0b000010#6)
  | .divD fd fs ft => some (rWord 0b010001#6 0b10001#5 ft fs fd 0b000011#6)
  | .divS fd fs ft => some (rWord 0b010001#6 0b10000#5 ft fs fd 0b000011#6)
  | .divPS fd fs ft => some (rWord 0b010001#6 0b10110#5 ft fs fd 0b000011#6)
  | .maddD fd fr fs ft => some (rWord 0b010011#6 fr ft fs fd 0b100001#6)
  | .maddS fd fr fs ft => some (rWord 0b010011#6 fr ft fs fd 0b100000#6)
  | .maddPS fd fr fs ft => some (rWord 0b010011#6 fr ft fs fd 0b100110#6)
  | .cvtSD fd fs => some (rWord 0b010001#6 0b10001#5 0b00000#5 fs fd 0b100000#6)
  | .cvtSW fd fs => some (rWord 0b010001#6 0b10100#5 0b00000#5 fs fd 0b100000#6)
  | .cvtSL fd fs => some (rWord 0b010001#6 0b10101#5 0b00000#5 fs fd 0b100000#6)
  | .cvtDS fd fs => some (rWord 0b010001#6 0b10000#5 0b00000#5 fs fd 0b100001#6)
  | .cvtDW fd fs => some (rWord 0b010001#6 0b10100#5 0b00000#5 fs fd 0b100001#6)
  | .cvtDL fd fs => some (rWord 0b010001#6 0b10101#5 0b00000#5 fs fd 0b100001#6)
  | .cvtWS fd fs => some (rWord 0b010001#6 0b10000#5 0b00000#5 fs fd 0b100100#6)
  | .cvtWD fd fs => some (rWord 0b010001#6 0b10001#5 0b00000#5 fs fd 0b100100#6)
  | .cvtLS fd fs => some (rWord 0b010001#6 0b10000#5 0b00000#5 fs fd 0b100101#6)
  | .cvtLD fd fs => some (rWord 0b010001#6 0b10001#5 0b00000#5 fs fd 0b100101#6)
  | .cLtS cc fs ft => some (compareWord 0b10000#5 ft fs cc 0b1100#4)
  | .cLeS cc fs ft => some (compareWord 0b10000#5 ft fs cc 0b1110#4)
  | .cGtS cc fs ft => some (compareWord 0b10000#5 fs ft cc 0b1100#4)
  | .cGeS cc fs ft => some (compareWord 0b10000#5 fs ft cc 0b1110#4)
  | .cEqS cc fs ft => some (compareWord 0b10000#5 ft fs cc 0b0010#4)
  | .cNeS _ _ _ => none
  | .cLtD cc fs ft => some (compareWord 0b10001#5 ft fs cc 0b1100#4)
  | .cLeD cc fs ft => some (compareWord 0b10001#5 ft fs cc 0b1110#4)
  | .cGtD cc fs ft => some (compareWord 0b10001#5 fs ft cc 0b1100#4)
  | .cGeD cc fs ft => some (compareWord 0b10001#5 fs ft cc 0b1110#4)
  | .cEqD cc fs ft => some (compareWord 0b10001#5 ft fs cc 0b0010#4)
  | .cNeD _ _ _ => none
  | .bc1t cc offset => some (fpBranchWord cc 0b1#1 offset)
  | .bc1f cc offset => some (fpBranchWord cc 0b0#1 offset)
  | .trap code => some (trapWord code)
  | .eret => some (coWord 0b011000#6)
  | .nop => some (rWord 0b000000#6 0b00000#5 0b00000#5 0b00000#5 0b00000#5 0b000000#6)

end Sys2Proof
end

