-- ==== Sys2Proof/Machine/Fetch.lean ====
section
/-! DEFINITION. Fetching the instruction at pc (spec/20_memory.md R68, spec/70_reset_and_hazards.md R333), one step around it
(spec/45_control_transfer.md R196), and placing an instruction where the next step fetches. -/

namespace Sys2Proof.Machine

/-- The place of the program text at an address (R80, R331). -/
def textAt (s : State) (a : Word) : Option TextSlot := s.text.find? fun t => t.addr == a

/-- `Fetch(pc)` (R68): the instruction and the state it executes in, which is `s` but for the draw where a byte of the word
was never written. An address outside the program text holds no instruction (R80, R333). -/
def fetch (s : State) : Except Stop (Instr × State) :=
  match checkAccess s.pc 4 (.addressErrorLoad s.pc) (.busErrorFetch s.pc) s with
  | .error e => .error e
  | .ok _ =>
    match textAt s s.pc with
    | none => .error (.refuse .fetchOutsideProgramText)
    | some t =>
      match t.placed with
      | some i => .ok (i, s)
      | none =>
        match decodeBytes s.params.endian (readBytes s s.pc 4) with
        | .ok (i, _) => .ok (i, afterRead s s.pc 4)
        | .error _ => .error (.refuse .wordOutsideCard)

/-- The run has reached `END_PC` with no delay slot pending (R333 a). -/
def atEnd (s : State) : Bool := s.params.endPc == some s.pc && s.delay.isNone

/-- One step: the end of the run, or a fetch and then `run` of the instruction. -/
def stepBy (run : Instr → State → Result) (s : State) : Result :=
  if atEnd s then .fault .exited
  else
    match fetch s with
    | .error e => stopWith s e
    | .ok (i, s') => run i s'

/-- `s` with the word `w` as the instruction at pc: its four bytes in memory and its place in the program text. -/
def placeWord (s : State) (w : IWord) : State :=
  { s with
    mem := s.mem.storeBytes s.pc (bytesOfWord s.params.endian w)
    text := ⟨s.pc, none⟩ :: s.text.filter fun t => t.addr != s.pc }

/-- `s` with `i` as the instruction at pc, at the assembly level (R6, R68). Memory at the four bytes is left as it was: no word is
written there, and a load of them reads what memory lists, else a free value (DESIGN CHOICE, unsafe: log 31). -/
def placeInstr (s : State) (i : Instr) : State :=
  { s with text := ⟨s.pc, some i⟩ :: s.text.filter fun t => t.addr != s.pc }

end Sys2Proof.Machine
end

