-- ==== Sys2Proof/Machine/Assembler.lean ====
section
/-! DEFINITION. The assembly level (spec/30_encoding.md R95 to R99, R103, R108, R109, R113; spec/47_floating_point.md R252):
from a mnemonic and its operands to an instruction. A line comes as its parts; the spelling of registers and labels is not on
the card (R108). -/

namespace Sys2Proof.Machine

/-- A constant as it is written: decimal or hexadecimal (R95, R108). -/
inductive AsmNum where
  | dec (z : Int)
  | hex (n : Nat)
  deriving DecidableEq, Repr

/-- An operand (R108). -/
inductive AsmOperand where
  | gpr (r : Reg)
  | fpr (r : FReg)
  | num (n : AsmNum)
  | mem (offset : AsmNum) (base : Reg)
  | label (name : String)
  deriving DecidableEq, Repr

/-- Why the assembler rejects a line. -/
inductive AsmError where
  | unknownMnemonic
  | wrongOperands
  | outOfRange
  | unknownLabel
  /-- The label is in another 256 MB region, or too far for a branch (R97, R98). -/
  | outOfReach
  /-- One of the six pairs of R252 (`cvt_pair_not_admitted`). -/
  | cvtPairNotAdmitted
  deriving DecidableEq, Repr

/-- An immediate that is sign-extended: -32768 to 32767, or a 16-bit pattern in hexadecimal (R95). -/
def immSigned : AsmNum → Except AsmError Imm
  | .dec z => if -32768 ≤ z ∧ z ≤ 32767 then .ok (BitVec.ofInt 16 z) else .error .outOfRange
  | .hex n => if n ≤ 0xFFFF then .ok (BitVec.ofNat 16 n) else .error .outOfRange

/-- An immediate that is zero-extended, and LUI's: 0 to 65535, or a 16-bit pattern in hexadecimal (R95; for LUI a
DESIGN CHOICE, safe: log 25). -/
def immUnsigned : AsmNum → Except AsmError Imm
  | .dec z => if 0 ≤ z ∧ z ≤ 65535 then .ok (BitVec.ofInt 16 z) else .error .outOfRange
  | .hex n => if n ≤ 0xFFFF then .ok (BitVec.ofNat 16 n) else .error .outOfRange

/-- The shift amount: imm mod 32 (R96). -/
def shiftImm : AsmNum → Shamt
  | .dec z => BitVec.ofInt 5 z
  | .hex n => BitVec.ofNat 5 n

/-- A number below 2^w: a c0 register number or a condition code (R99). -/
def smallNumber (w : Nat) : AsmNum → Except AsmError (BitVec w)
  | .dec z => if 0 ≤ z ∧ z < 2 ^ w then .ok (BitVec.ofInt w z) else .error .outOfRange
  | .hex n => if n < 2 ^ w then .ok (BitVec.ofNat w n) else .error .outOfRange

/-- instr_index of a label for a jump at pc (R97). -/
def assembleJump (pc target : Word) : Except AsmError JField :=
  if target.extractLsb' 28 36 = pc.extractLsb' 28 36 then .ok ((target >>> 2).setWidth 26) else .error .outOfReach

/-- The offset of a label for a branch at pc: (address(Label) - (pc + 4)) / 4, an integer in -32768 to 32767 (R98). -/
def assembleBranch (pc target : Word) : Except AsmError Imm :=
  let d := (target - (pc + 4)).toInt
  if d % 4 = 0 ∧ -32768 ≤ d / 4 ∧ d / 4 ≤ 32767 then .ok (BitVec.ofInt 16 (d / 4)) else .error .outOfReach

/-- The operand formats of R109, each with the instruction it makes. -/
inductive AsmForm where
  | none (i : Instr)
  | gpr1 (f : Reg → Instr)
  | gpr2 (f : Reg → Reg → Instr)
  | gpr3 (f : Reg → Reg → Reg → Instr)
  | gprMem (f : Reg → Imm → Reg → Instr)
  | fprMem (f : FReg → Imm → Reg → Instr)
  | gprImm (f : Reg → Imm → Instr)
  | gpr2Signed (f : Reg → Reg → Imm → Instr)
  | gpr2Unsigned (f : Reg → Reg → Imm → Instr)
  | gpr2Shift (f : Reg → Reg → Shamt → Instr)
  | gprC0 (f : Reg → CReg → Instr)
  | gprFpr (f : Reg → FReg → Instr)
  | fpr2 (f : FReg → FReg → Instr)
  | fpr3 (f : FReg → FReg → FReg → Instr)
  | fpr4 (f : FReg → FReg → FReg → FReg → Instr)
  | compare (f : Cc → FReg → FReg → Instr)
  | jump (f : JField → Instr)
  | gprLabel (f : Reg → Imm → Instr)
  | gpr2Label (f : Reg → Reg → Imm → Instr)
  | ccLabel (f : Cc → Imm → Instr)

/-- The load-store formats. -/
def asmLoadStore : List (String × AsmForm) := [
  ("LB", .gprMem .lb),
  ("LBU", .gprMem .lbu),
  ("LH", .gprMem .lh),
  ("LHU", .gprMem .lhu),
  ("LW", .gprMem .lw),
  ("LWU", .gprMem .lwu),
  ("LD", .gprMem .ld),
  ("SB", .gprMem .sb),
  ("SH", .gprMem .sh),
  ("SW", .gprMem .sw),
  ("SD", .gprMem .sd),
  ("L.S", .fprMem .lS),
  ("L.D", .fprMem .lD),
  ("LUI", .gprImm .lui),
  ("S.S", .fprMem .sS),
  ("S.D", .fprMem .sD)]

/-- The arithmetic formats. -/
def asmArithmetic : List (String × AsmForm) := [
  ("DADDU", .gpr3 .daddu),
  ("DADDIU", .gpr2Signed .daddiu),
  ("DSUBU", .gpr3 .dsubu),
  ("DMULT", .gpr2 .dmult),
  ("DMULTU", .gpr2 .dmultu),
  ("DDIV", .gpr2 .ddiv),
  ("DDIVU", .gpr2 .ddivu),
  ("MADD", .gpr2 .madd)]

/-- The special move formats. -/
def asmSpecialMove : List (String × AsmForm) := [
  ("MFHI", .gpr1 .mfhi),
  ("MFLO", .gpr1 .mflo),
  ("MTHI", .gpr1 .mthi),
  ("MTLO", .gpr1 .mtlo),
  ("MFC0", .gprC0 .mfc0),
  ("MTC0", .gprC0 .mtc0),
  ("DMFC0", .gprC0 .dmfc0),
  ("DMTC0", .gprC0 .dmtc0),
  ("MFC1", .gprFpr .mfc1),
  ("MTC1", .gprFpr .mtc1),
  ("DMFC1", .gprFpr .dmfc1),
  ("DMTC1", .gprFpr .dmtc1),
  ("MOV.S", .fpr2 .movS),
  ("MOV.D", .fpr2 .movD)]

/-- The logical formats. -/
def asmLogical : List (String × AsmForm) := [
  ("AND", .gpr3 .and),
  ("OR", .gpr3 .or),
  ("XOR", .gpr3 .xor),
  ("NOR", .gpr3 .nor),
  ("ANDI", .gpr2Unsigned .andi),
  ("ORI", .gpr2Unsigned .ori),
  ("XORI", .gpr2Unsigned .xori)]

/-- The shift formats. -/
def asmShift : List (String × AsmForm) := [
  ("DSLLV", .gpr3 .dsllv),
  ("DSRLV", .gpr3 .dsrlv),
  ("DSRAV", .gpr3 .dsrav),
  ("DSLL", .gpr2Shift .dsll),
  ("DSRL", .gpr2Shift .dsrl),
  ("DSRA", .gpr2Shift .dsra)]

/-- The control and transfer formats. -/
def asmControl : List (String × AsmForm) := [
  ("J", .jump .j),
  ("JR", .gpr1 .jr),
  ("JAL", .jump .jal),
  ("JALR", .gpr1 .jalr),
  ("BLEZ", .gprLabel .blez),
  ("BLTZ", .gprLabel .bltz),
  ("BGEZ", .gprLabel .bgez),
  ("BGTZ", .gprLabel .bgtz),
  ("BEQ", .gpr2Label .beq),
  ("BNE", .gpr2Label .bne),
  ("MOVZ", .gpr3 .movz),
  ("MOVN", .gpr3 .movn)]

/-- The set on condition formats. -/
def asmSetOnCondition : List (String × AsmForm) := [
  ("SLT", .gpr3 .slt),
  ("SLTU", .gpr3 .sltu),
  ("SLTI", .gpr2Signed .slti),
  ("SLTIU", .gpr2Signed .sltiu)]

/-- The floating point formats. -/
def asmFloat : List (String × AsmForm) := [
  ("ADD.D", .fpr3 .addD),
  ("ADD.S", .fpr3 .addS),
  ("ADD.PS", .fpr3 .addPS),
  ("SUB.D", .fpr3 .subD),
  ("SUB.S", .fpr3 .subS),
  ("SUB.PS", .fpr3 .subPS),
  ("MUL.D", .fpr3 .mulD),
  ("MUL.S", .fpr3 .mulS),
  ("MUL.PS", .fpr3 .mulPS),
  ("DIV.D", .fpr3 .divD),
  ("DIV.S", .fpr3 .divS),
  ("DIV.PS", .fpr3 .divPS),
  ("MADD.D", .fpr4 .maddD),
  ("MADD.S", .fpr4 .maddS),
  ("MADD.PS", .fpr4 .maddPS),
  ("CVT.S.D", .fpr2 .cvtSD),
  ("CVT.S.W", .fpr2 .cvtSW),
  ("CVT.S.L", .fpr2 .cvtSL),
  ("CVT.D.S", .fpr2 .cvtDS),
  ("CVT.D.W", .fpr2 .cvtDW),
  ("CVT.D.L", .fpr2 .cvtDL),
  ("CVT.W.S", .fpr2 .cvtWS),
  ("CVT.W.D", .fpr2 .cvtWD),
  ("CVT.L.S", .fpr2 .cvtLS),
  ("CVT.L.D", .fpr2 .cvtLD),
  ("C.LT.S", .compare .cLtS),
  ("C.LE.S", .compare .cLeS),
  ("C.GT.S", .compare .cGtS),
  ("C.GE.S", .compare .cGeS),
  ("C.EQ.S", .compare .cEqS),
  ("C.NE.S", .compare .cNeS),
  ("C.LT.D", .compare .cLtD),
  ("C.LE.D", .compare .cLeD),
  ("C.GT.D", .compare .cGtD),
  ("C.GE.D", .compare .cGeD),
  ("C.EQ.D", .compare .cEqD),
  ("C.NE.D", .compare .cNeD),
  ("BC1T", .ccLabel .bc1t),
  ("BC1F", .ccLabel .bc1f)]

/-- The special formats. -/
def asmSpecial : List (String × AsmForm) := [
  ("TRAP", .none (.trap 0)),
  ("ERET", .none .eret),
  ("NOP", .none .nop)]

/-- The assembly formats of R109. -/
def asmRows : List (String × AsmForm) :=
  asmLoadStore ++ asmArithmetic ++ asmSpecialMove ++ asmLogical ++ asmShift ++ asmControl ++ asmSetOnCondition ++ asmFloat ++ asmSpecial

/-- The pairs of CVT.x.y that R252 refuses at assembly. -/
def cvtPairsRefused : List String := ["CVT.S.S", "CVT.D.D", "CVT.W.W", "CVT.L.L", "CVT.W.L", "CVT.L.W"]

/-- A label with its address. -/
abbrev Labels := List (String × Word)

/-- The address of a label. -/
def labelAddress (ls : Labels) (name : String) : Except AsmError Word :=
  match ls.find? fun p => p.1 == name with
  | some p => .ok p.2
  | none => .error .unknownLabel

/-- The instruction of a form and its operands, at address pc. -/
def assembleForm (ls : Labels) (pc : Word) : AsmForm → List AsmOperand → Except AsmError Instr
  | .none i, [] => .ok i
  | .gpr1 f, [.gpr a] => .ok (f a)
  | .gpr2 f, [.gpr a, .gpr b] => .ok (f a b)
  | .gpr3 f, [.gpr a, .gpr b, .gpr c] => .ok (f a b c)
  | .gprMem f, [.gpr a, .mem o b] => (immSigned o).map fun o => f a o b
  | .fprMem f, [.fpr a, .mem o b] => (immSigned o).map fun o => f a o b
  | .gprImm f, [.gpr a, .num n] => (immUnsigned n).map fun n => f a n
  | .gpr2Signed f, [.gpr a, .gpr b, .num n] => (immSigned n).map fun n => f a b n
  | .gpr2Unsigned f, [.gpr a, .gpr b, .num n] => (immUnsigned n).map fun n => f a b n
  | .gpr2Shift f, [.gpr a, .gpr b, .num n] => .ok (f a b (shiftImm n))
  | .gprC0 f, [.gpr a, .num n] => (smallNumber 5 n).map fun n => f a n
  | .gprFpr f, [.gpr a, .fpr b] => .ok (f a b)
  | .fpr2 f, [.fpr a, .fpr b] => .ok (f a b)
  | .fpr3 f, [.fpr a, .fpr b, .fpr c] => .ok (f a b c)
  | .fpr4 f, [.fpr a, .fpr b, .fpr c, .fpr d] => .ok (f a b c d)
  | .compare f, [.fpr a, .fpr b] => .ok (f 0 a b)
  | .compare f, [.num n, .fpr a, .fpr b] => (smallNumber 3 n).map fun n => f n a b
  | .jump f, [.label l] => do .ok (f (← assembleJump pc (← labelAddress ls l)))
  | .gprLabel f, [.gpr a, .label l] => do .ok (f a (← assembleBranch pc (← labelAddress ls l)))
  | .gpr2Label f, [.gpr a, .gpr b, .label l] => do .ok (f a b (← assembleBranch pc (← labelAddress ls l)))
  | .ccLabel f, [.label l] => do .ok (f 0 (← assembleBranch pc (← labelAddress ls l)))
  | .ccLabel f, [.num n, .label l] => do .ok (f (← smallNumber 3 n) (← assembleBranch pc (← labelAddress ls l)))
  | _, _ => .error .wrongOperands

/-- The instruction of a line of assembly at address pc (R108, R109). -/
def assemble (ls : Labels) (pc : Word) (mnemonic : String) (operands : List AsmOperand) : Except AsmError Instr :=
  if cvtPairsRefused.contains mnemonic then .error .cvtPairNotAdmitted
  else
    match asmRows.find? fun r => r.1 == mnemonic with
    | some r => assembleForm ls pc r.2 operands
    | none => .error .unknownMnemonic

end Sys2Proof.Machine
end

