-- ==== Sys2Proof/Machine/Launch.lean ====
section
/-! DEFINITION. Launch by the environment (spec/70_reset_and_hazards.md R331, the "at launch" column of Table 10-1) and the
launch premises a claim may name. -/

namespace Sys2Proof.Machine

/-- What a place of the program text holds: a word of the binary level, or an instruction of the assembly level (R331 a). -/
inductive TextItem where
  | word (w : IWord)
  | instr (i : Instr)
  deriving DecidableEq, Repr

/-- What the environment supplies (R331 a to e). -/
structure Launch where
  text : List (Word × TextItem)
  data : List (Word × Byte)
  entryPc : Word
  entryMode : Mode
  gprs : List (Reg × Word)
  fprs : List (FReg × Word)
  params : Params
  endPc : Word
  deriving DecidableEq, Repr

/-- Status at launch: IE, EXL and ERL are 0, KSU is 00 or 10 by `ENTRY_MODE`, the other bits keep what they held (R331). -/
def launchStatus (m : Mode) (st : Word) : Word :=
  (st &&& ~~~0b11111) ||| match m with
    | .kernel => 0b00000
    | .user => 0b10000

/-- The memory with the words of the program text in it, in the byte order of the run (R63). At a place that is given at the
assembly level no word is written and memory is left as it was, data of the launch included (DESIGN CHOICE, unsafe: log 31). -/
def loadText (e : Endian) (m : Memory) (text : List (Word × TextItem)) : Memory :=
  text.foldl (fun m p => match p.2 with
    | .word w => m.storeBytes p.1 (bytesOfWord e w)
    | .instr _ => m) m

/-- The places of the program text. -/
def textSlots (text : List (Word × TextItem)) : List TextSlot :=
  text.map fun p => match p.2 with
    | .word _ => ⟨p.1, none⟩
    | .instr i => ⟨p.1, some i⟩

/-- The state a run starts in (R331); what the launch does not name keeps its value of `s`. -/
def launch (l : Launch) (s : State) : State :=
  let s := { s with
    pc := l.entryPc
    delay := none
    status := launchStatus l.entryMode s.status
    mem := loadText l.params.endian (l.data.foldl (fun m p => m.store p.1.toNat p.2) s.mem) l.text
    text := textSlots l.text
    params := { l.params with endPc := some l.endPc } }
  let s := l.gprs.foldl (fun s p => writeGpr s p.1 p.2) s
  l.fprs.foldl (fun s p => writeFpr s p.1 p.2) s

/-- An address is a multiple of 4 (R90). -/
def aligned4 (a : Word) : Bool := a.toNat % 4 == 0

/-- `TextBacked`: the text is a finite map from aligned addresses, all of it backed, to instructions of the card (R331 a). -/
def textBacked (l : Launch) : Bool :=
  decide (l.text.Pairwise fun p q => p.1 ≠ q.1) &&
  l.text.all fun p =>
    aligned4 p.1 && allBytes p.1 4 (inRegions l.params.backed) &&
    match p.2 with
    | .word w => opcodeRows.any fun r => r.matches w
    | .instr _ => true

/-- `EntryAligned`: `ENTRY_PC` is an aligned address in the text (R331 c). -/
def entryAligned (l : Launch) : Bool := aligned4 l.entryPc && l.text.any fun p => p.1 == l.entryPc

/-- `END_PC` is an aligned address outside the text (R333 a). -/
def endOutsideText (l : Launch) : Bool := aligned4 l.endPc && l.text.all fun p => p.1 != l.endPc

/-- The launch premises of R331 that are checks. -/
def launchOk (l : Launch) : Bool := textBacked l && entryAligned l && endOutsideText l

end Sys2Proof.Machine
end

