-- ==== Sys2Proof/Safety.lean ====
section
/-! DEFINITION. The terms claims are stated in: how an instruction completes, what it leaves unchanged, when an access goes
through, what taking an exception leaves, the invariant, and the IEEE 754 notions of R223 and R253. They are written from
spec/ and use no operation that a meaning is built from, but for the accessors and tests they name. -/

namespace Sys2Proof.Machine

-- Completion and order (R34, R196)

/-- `i` completes in `s` with a next state of which `P` holds. -/
def Completes (i : Instr) (s : State) (P : State → Prop) : Prop := ∃ t, exec i s = .next t ∧ P t

/-- A sequential instruction does not wrap pc to 0 (R35, U9; log 12). -/
abbrev CanAdvance (s : State) : Prop := s.delay = none → s.pc.toNat + 4 < 2 ^ 64

/-- The next pc and delay of a sequential instruction (R196 step 4). -/
structure InOrder (s t : State) : Prop where
  pc : t.pc = s.delay.getD (s.pc + 4)
  delay : t.delay = none

/-- A jump or taken branch may stand at pc: no delay slot is pending (R196 step 2) and its own slot does not wrap (U9). -/
abbrev CanTransfer (s : State) : Prop := s.delay = none ∧ (s.params.delaySlot = true → s.pc.toNat + 4 < 2 ^ 64)

/-- The next pc and delay of a jump or a taken branch (R196 step 4). -/
structure Transfers (target : Word) (s t : State) : Prop where
  noSlot : s.params.delaySlot = false → t.pc = target ∧ t.delay = none
  slot : s.params.delaySlot = true → t.pc = s.pc + 4 ∧ t.delay = some target

/-- The next pc and delay of a branch not taken (R196 step 4). -/
structure FallsThrough (s t : State) : Prop where
  noSlot : s.params.delaySlot = false → t.pc = s.pc + 4 ∧ t.delay = none
  slot : s.params.delaySlot = true → t.pc = s.pc + 4 ∧ t.delay = some (s.pc + 8)

/-- The branch at pc may run, by whether it is taken: no pending slot, and no address it goes to wraps to 0 (U9; log 12). -/
abbrev BranchRoom (taken : Prop) (offset : Imm) (s : State) : Prop :=
  s.delay = none ∧
  (taken → (s.pc.toNat : Int) + 4 + 4 * offset.toInt < 2 ^ 64 ∧
    (s.params.delaySlot = true → s.pc.toNat + 4 < 2 ^ 64)) ∧
  (¬taken → s.pc.toNat + (if s.params.delaySlot = true then 8 else 4) < 2 ^ 64)

-- Frames

/-- The parts of the state a frame speaks of. `run` is what R48 fixes for a run: the parameters and the program text. -/
inductive Part where
  | gprs | hi | lo | fprs | fccs | status | cause | epc | badVAddr | mem | run
  deriving DecidableEq, Repr

/-- The part reads the same in both states; memory, byte by byte. -/
def Part.Same (s t : State) : Part → Prop
  | .gprs => ∀ r, readGpr t r = readGpr s r
  | .hi => t.hi = s.hi
  | .lo => t.lo = s.lo
  | .fprs => ∀ r, readFpr t r = readFpr s r
  | .fccs => ∀ c, readFcc t c = readFcc s c
  | .status => t.status = s.status
  | .cause => t.cause = s.cause
  | .epc => t.epc = s.epc
  | .badVAddr => t.badVAddr = s.badVAddr
  | .mem => ∀ a : Nat, t.mem.lookup a = s.mem.lookup a
  | .run => t.params = s.params ∧ t.text = s.text

/-- Every part but the listed ones reads the same; pc and delay are not parts. -/
def KeepsAllBut (ps : List Part) (s t : State) : Prop := ∀ p, p ∉ ps → Part.Same s t p

-- What sequential instructions leave

/-- Only pc moved. -/
def OnlyAdvances (s t : State) : Prop := KeepsAllBut [] s t ∧ InOrder s t

/-- x[rd] <- v, discarded for x[0] (R31), and nothing else. -/
def GprResult (rd : Reg) (v : Word) (s t : State) : Prop :=
  (∀ r, readGpr t r = if r = rd ∧ r ≠ 0 then v else readGpr s r) ∧ KeepsAllBut [.gprs] s t ∧ InOrder s t

/-- f[fd] <- v and nothing else. -/
def FprResult (fd : FReg) (v : Word) (s t : State) : Prop :=
  (∀ r, readFpr t r = if r = fd then v else readFpr s r) ∧ KeepsAllBut [.fprs] s t ∧ InOrder s t

/-- f[fd] <- any32 ## v and nothing else (R38). -/
def FprLowResult (fd : FReg) (v : BitVec 32) (s t : State) : Prop :=
  (readFpr t fd).extractLsb' 0 32 = v ∧ (∀ r, r ≠ fd → readFpr t r = readFpr s r) ∧ KeepsAllBut [.fprs] s t ∧ InOrder s t

/-- fcc[cc] <- b and nothing else. -/
def FccResult (cc : Cc) (b : Bool) (s t : State) : Prop :=
  (∀ c, readFcc t c = if c = cc then b else readFcc s c) ∧ KeepsAllBut [.fccs] s t ∧ InOrder s t

/-- hi and lo written, as `P` says, and nothing else. -/
def HiLoResult (P : Word → Word → Prop) (s t : State) : Prop :=
  P t.hi t.lo ∧ KeepsAllBut [.hi, .lo] s t ∧ InOrder s t

-- Data accesses (R63 to R67)

/-- The checks of R66 and R67 that raise an exception all pass. -/
abbrev AccessOk (a : Word) (k : Nat) (s : State) : Prop :=
  mode s ≠ none ∧ a.toNat % k = 0 ∧ (mode s = some .user → userAccessible s a = true) ∧
  ∀ i < k, backed s (a + BitVec.ofNat 64 i) = true

/-- `b` gives the k bytes from address `a` upward, where they were written; a byte never written is any value (R50). -/
def Holds (s : State) (a : Word) (k : Nat) (b : Nat → Byte) : Prop :=
  ∀ i < k, ∀ x, s.mem.lookup (a.toNat + i) = some x → b i = x

/-- Two bytes, b 0 at the lower address, as a half-word (R63). -/
def halfOf (e : Endian) (b : Nat → Byte) : BitVec 16 :=
  match e with
  | .big => b 0 ++ b 1
  | .little => b 1 ++ b 0

/-- Four bytes as a word (R63). -/
def wordOf (e : Endian) (b : Nat → Byte) : BitVec 32 :=
  match e with
  | .big => b 0 ++ b 1 ++ b 2 ++ b 3
  | .little => b 3 ++ b 2 ++ b 1 ++ b 0

/-- Eight bytes as a double-word (R63). -/
def dwordOf (e : Endian) (b : Nat → Byte) : Word :=
  match e with
  | .big => b 0 ++ b 1 ++ b 2 ++ b 3 ++ b 4 ++ b 5 ++ b 6 ++ b 7
  | .little => b 7 ++ b 6 ++ b 5 ++ b 4 ++ b 3 ++ b 2 ++ b 1 ++ b 0

/-- Byte i, from the lowest address, of the low k bytes of v (R63). -/
def byteStored (e : Endian) (k : Nat) (v : Word) (i : Nat) : Byte :=
  match e with
  | .big => v.extractLsb' (8 * (k - 1 - i)) 8
  | .little => v.extractLsb' (8 * i) 8

/-- The low k bytes of v stored at `a`, every other byte of memory as before, and nothing else changed (R67). -/
def StoreResult (a : Word) (k : Nat) (v : Word) (s t : State) : Prop :=
  (∀ i < k, t.mem.lookup (a.toNat + i) = some (byteStored s.params.endian k v i)) ∧
  (∀ n : Nat, n < a.toNat ∨ a.toNat + k ≤ n → t.mem.lookup n = s.mem.lookup n) ∧
  KeepsAllBut [.mem] s t ∧ InOrder s t

/-- The base, offset and size of a load (R70). -/
def loadOperands : Instr → Option (Reg × Imm × Nat)
  | .lb _ offset rs => some (rs, offset, 1)
  | .lbu _ offset rs => some (rs, offset, 1)
  | .lh _ offset rs => some (rs, offset, 2)
  | .lhu _ offset rs => some (rs, offset, 2)
  | .lw _ offset rs => some (rs, offset, 4)
  | .lwu _ offset rs => some (rs, offset, 4)
  | .ld _ offset rs => some (rs, offset, 8)
  | .lS _ offset rs => some (rs, offset, 4)
  | .lD _ offset rs => some (rs, offset, 8)
  | _ => none

/-- The base, offset and size of a store (R70). -/
def storeOperands : Instr → Option (Reg × Imm × Nat)
  | .sb _ offset rs => some (rs, offset, 1)
  | .sh _ offset rs => some (rs, offset, 2)
  | .sw _ offset rs => some (rs, offset, 4)
  | .sd _ offset rs => some (rs, offset, 8)
  | .sS _ offset rs => some (rs, offset, 4)
  | .sD _ offset rs => some (rs, offset, 8)
  | _ => none

/-- The address x[RS] + sext_64(offset) (R69). -/
def addressOf (s : State) (rs : Reg) (offset : Imm) : Word := readGpr s rs + offset.signExtend 64

/-- The instructions of R196 step 2: jumps, branches and ERET. -/
def controlTransfer : Instr → Bool
  | .j _ => true
  | .jr _ => true
  | .jal _ => true
  | .jalr _ => true
  | .blez _ _ => true
  | .bltz _ _ => true
  | .bgez _ _ => true
  | .bgtz _ _ => true
  | .beq _ _ _ => true
  | .bne _ _ _ => true
  | .bc1t _ _ => true
  | .bc1f _ _ => true
  | .eret => true
  | _ => false

/-- The instructions that User mode may not execute (R294). -/
def kernelInstr : Instr → Bool
  | .mfc0 _ _ => true
  | .mtc0 _ _ => true
  | .dmfc0 _ _ => true
  | .dmtc0 _ _ => true
  | .eret => true
  | _ => false

-- Where a jump or a branch goes, and what comes before pc moves (R197 to R207, R266, R267)

/-- The destination of a jump. -/
def jumpDestination : Instr → State → Option Word
  | .j index, s => some (s.pc.extractLsb' 28 36 ++ index ++ 0b00#2)
  | .jal index, s => some (s.pc.extractLsb' 28 36 ++ index ++ 0b00#2)
  | .jr rs, s => some (readGpr s rs)
  | .jalr rs, s => some (readGpr s rs)
  | _, _ => none

/-- Whether a branch is taken, and its offset. -/
def branchCase : Instr → State → Option (Bool × Imm)
  | .blez rs offset, s => some (decide ((readGpr s rs).toInt ≤ 0), offset)
  | .bltz rs offset, s => some (decide ((readGpr s rs).toInt < 0), offset)
  | .bgez rs offset, s => some (decide (0 ≤ (readGpr s rs).toInt), offset)
  | .bgtz rs offset, s => some (decide (0 < (readGpr s rs).toInt), offset)
  | .beq rs rt offset, s => some (decide (readGpr s rs = readGpr s rt), offset)
  | .bne rs rt offset, s => some (decide (readGpr s rs ≠ readGpr s rt), offset)
  | .bc1t cc offset, s => some (readFcc s cc, offset)
  | .bc1f cc offset, s => some (!readFcc s cc, offset)
  | _, _ => none

/-- The destination of a taken branch, by the formula of R201 (at offset 0 too: log 29). -/
abbrev takenTarget (s : State) (offset : Imm) : Word := s.pc + 4 + (offset ++ 0b00#2).signExtend 64

/-- The four c0 registers that have a meaning (R159). -/
abbrev C0Number (n : CReg) : Prop := n = 8 ∨ n = 12 ∨ n = 13 ∨ n = 14

/-- No byte of a store lies in the program text (R80). -/
abbrev OutsideText (a : Word) (k : Nat) (s : State) : Prop := ∀ i < k, inText s (a + BitVec.ofNat 64 i) = false

/-- The instruction comes to the move of pc: none of its own refusals and exceptions applies. A pending delay slot and the
wrap of pc are not looked at here. TRAP always raises, and ERET sets pc itself. -/
def ReachesAdvance : Instr → State → Prop
  | .j _, s => s.pc.extractLsb' 0 28 ≠ 0xFFFFFFC
  | .jal _, s => s.pc.extractLsb' 0 28 ≠ 0xFFFFFFC
  | .jalr rs, _ => rs ≠ 31
  | .madd rs rt, s => s.params.maddMode = .mips32 →
      readGpr s rs = ((readGpr s rs).extractLsb' 0 32).signExtend 64 ∧
      readGpr s rt = ((readGpr s rt).extractLsb' 0 32).signExtend 64
  | .mfc0 _ cs, s => mode s = some .kernel ∧ C0Number cs
  | .mtc0 _ cd, s => mode s = some .kernel ∧ C0Number cd
  | .dmfc0 _ cs, s => mode s = some .kernel ∧ C0Number cs
  | .dmtc0 _ cd, s => mode s = some .kernel ∧ C0Number cd
  | .trap _, _ => False
  | .eret, _ => False
  | i, s =>
    (∀ rs offset k, loadOperands i = some (rs, offset, k) → AccessOk (addressOf s rs offset) k s) ∧
    ∀ rs offset k, storeOperands i = some (rs, offset, k) →
      AccessOk (addressOf s rs offset) k s ∧ OutsideText (addressOf s rs offset) k s

/-- pc would wrap to 0 after the instruction: the premise under which it completes fails on its wrap part (U9; log 12). -/
def WrapsPc (i : Instr) (s : State) : Prop :=
  match jumpDestination i s, branchCase i s with
  | some _, _ => s.delay = none ∧ ¬CanTransfer s
  | none, some (taken, offset) => s.delay = none ∧ ¬BranchRoom (taken = true) offset s
  | none, none => ¬CanAdvance s

-- Exceptions (R290, R296)

/-- Table 60-1: the code of an exception. -/
def tableCode : Exn → BitVec 5
  | .addressErrorLoad _ => 4
  | .addressErrorStore _ => 5
  | .busErrorFetch _ => 6
  | .busErrorData _ => 7
  | .trap => 8
  | .reservedInstruction => 10
  | .coprocessorUnusable _ => 11

/-- Table 60-1: the address that BadVAddr records. -/
def recordedAddress : Exn → Option Word
  | .addressErrorLoad a => some a
  | .addressErrorStore a => some a
  | _ => none

/-- The machine has taken exception `e` in state `s`, `HOST_TRAPS` being false (R296 a to f): every clause of the rule, and
nothing else changed. -/
structure TrapEntered (e : Exn) (s t : State) : Prop where
  epcAndBd : exl s = false → s.delay = none → t.epc = s.pc ∧ t.cause.bd = false
  epcAndBdInSlot : exl s = false → s.delay ≠ none → t.epc = s.pc - 4 ∧ t.cause.bd = true
  epcAndBdNested : exl s = true → t.epc = s.epc ∧ t.cause.bd = s.cause.bd
  excCode : t.cause.excCode = tableCode e
  ce : ∀ n, e = .coprocessorUnusable n → t.cause.ce = n
  badVAddr : t.badVAddr = (recordedAddress e).getD s.badVAddr
  status : ∀ k, k < 64 → t.status.getLsbD k = (k == 1 || s.status.getLsbD k)
  kernel : mode t = some .kernel
  delay : t.delay = none
  pc : t.pc = s.params.excVector
  frame : KeepsAllBut [.status, .cause, .epc, .badVAddr] s t

/-- The outcome `r` of a step or an instruction in `s` is that exception `e` is raised (R296): the end of the run, with no
state changed, when `HOST_TRAPS` is true, and trap entry otherwise. -/
structure Raises (e : Exn) (s : State) (r : Result) : Prop where
  host : s.params.hostTraps = true → r = .fault (.trapped e s.pc)
  handler : s.params.hostTraps = false → ∃ t, r = .next t ∧ TrapEntered e s t

/-- What Table 60-1 says of the source of each exception that an instruction raises (R291 to R295). -/
def HasCause (i : Instr) (s : State) : Exn → Prop
  | .addressErrorLoad a => ∃ rs offset k, loadOperands i = some (rs, offset, k) ∧ a = addressOf s rs offset ∧
      (a.toNat % k ≠ 0 ∨ (mode s = some .user ∧ userAccessible s a = false))
  | .addressErrorStore a => ∃ rs offset k, storeOperands i = some (rs, offset, k) ∧ a = addressOf s rs offset ∧
      (a.toNat % k ≠ 0 ∨ (mode s = some .user ∧ userAccessible s a = false))
  | .busErrorFetch _ => False
  | .busErrorData a => ∃ rs offset k, (loadOperands i = some (rs, offset, k) ∨ storeOperands i = some (rs, offset, k)) ∧
      a = addressOf s rs offset ∧ a.toNat % k = 0 ∧ ∃ j < k, backed s (a + BitVec.ofNat 64 j) = false
  | .trap => ∃ code, i = .trap code
  | .reservedInstruction => False
  | .coprocessorUnusable n => n = 0 ∧ kernelInstr i = true ∧ mode s = some .user

/-- The instructions that write a c0 register themselves. -/
def writesC0 : Instr → Bool
  | .mtc0 _ _ => true
  | .dmtc0 _ _ => true
  | _ => false

/-- The next state `t` of `i` is not that of an exception: what taking one records is as it was, but for EPC and EXL where
the instruction is a move to c0. -/
structure NoException (i : Instr) (s t : State) : Prop where
  cause : t.cause = s.cause
  badVAddr : t.badVAddr = s.badVAddr
  epc : writesC0 i = false → t.epc = s.epc
  exl : writesC0 i = false → exl t = true → exl s = true

-- Where accesses stop (R66, R67), and what a c0 register reads as (R40 to R43)

/-- A load of k bytes at `a` raises what R66 says, in its order; `r` is its outcome. A state whose mode is refused is R45's. -/
def LoadStops (a : Word) (k : Nat) (s : State) (r : Result) : Prop :=
  mode s ≠ none →
    (a.toNat % k ≠ 0 ∨ (mode s = some .user ∧ userAccessible s a = false) → Raises (.addressErrorLoad a) s r) ∧
    (a.toNat % k = 0 → ¬(mode s = some .user ∧ userAccessible s a = false) →
      (∃ i < k, backed s (a + BitVec.ofNat 64 i) = false) → Raises (.busErrorData a) s r)

/-- A store of k bytes at `a` raises or is refused as R67 says, in its order. -/
def StoreStops (a : Word) (k : Nat) (s : State) (r : Result) : Prop :=
  mode s ≠ none →
    (a.toNat % k ≠ 0 ∨ (mode s = some .user ∧ userAccessible s a = false) → Raises (.addressErrorStore a) s r) ∧
    (a.toNat % k = 0 → ¬(mode s = some .user ∧ userAccessible s a = false) →
      (∃ i < k, backed s (a + BitVec.ofNat 64 i) = false) → Raises (.busErrorData a) s r) ∧
    (AccessOk a k s → (∃ i < k, inText s (a + BitVec.ofNat 64 i) = true) → r = .refused .storeIntoProgramText)

/-- `v` is what c0[n] may read as in `s`: of Cause only ExcCode, BD and CE are fixed (R42). -/
structure C0Reads (s : State) (n : CReg) (v : Word) : Prop where
  badVAddr : n = 8 → v = s.badVAddr
  status : n = 12 → v = s.status
  cause : n = 13 → v.extractLsb' 2 5 = s.cause.excCode ∧ v.getLsbD 31 = s.cause.bd ∧ v.extractLsb' 28 2 = s.cause.ce
  epc : n = 14 → v = s.epc

-- Fetch (R68, R333)

/-- `step` gets as far as the fetch, and the fetch's three checks pass. -/
abbrev FetchOk (s : State) : Prop :=
  atEnd s = false ∧ AccessOk s.pc 4 s

/-- Memory holds the word `w` at pc, in the byte order of the run. -/
abbrev WordAtPc (s : State) (w : IWord) : Prop :=
  ∀ i < 4, s.mem.lookup (s.pc.toNat + i) = some (match s.params.endian with
    | .big => w.extractLsb' (8 * (3 - i)) 8
    | .little => w.extractLsb' (8 * i) 8)

-- The invariant

/-- What every step keeps: memory in canonical form, the storage behind x[0] zero, no pending slot on a machine without delay
slots (R47), and a delay slot that stands after its branch, so that EPC = pc - 4 does not wrap (R296 a). -/
structure StateInv (s : State) : Prop where
  mem : s.mem.wf
  zero : s.gpr[0] = 0
  noSlot : s.params.delaySlot = false → s.delay = none
  slotAfterBranch : s.delay ≠ none → 4 ≤ s.pc.toNat

-- What User mode cannot see (R40, R160)

/-- The state with Cause, EPC, BadVAddr and the Status bits that no rule interprets blotted out. -/
def hideC0 (s : State) : State :=
  { s with status := s.status &&& 0b11110, cause := ⟨0, false, 0⟩, epc := 0, badVAddr := 0 }

/-- Two outcomes are the same but for what `hideC0` blots out. -/
def sameButC0 : Result → Result → Prop
  | .next t, .next u => hideC0 t = hideC0 u
  | .fault e, .fault f => e = f
  | .refused r, .refused q => r = q
  | _, _ => False

-- Floating-point numbers (R223, R253)

/-- The rational number (-1)^neg * m * 2^e. -/
def ratOf (neg : Bool) (m : Nat) (e : Int) : ℚ := (if neg then -1 else 1) * m * (2 : ℚ) ^ e

/-- `val` of R253 on the extended numbers: `none` is NaN, the ends are the infinities, +0 and -0 are 0. -/
def extended : FpVal → Option (WithBot (WithTop ℚ))
  | .nan => none
  | .inf true => some ⊥
  | .inf false => some ((⊤ : WithTop ℚ) : WithBot (WithTop ℚ))
  | .fin neg m e => some ((ratOf neg m e : WithTop ℚ) : WithBot (WithTop ℚ))

/-- The number of a bit pattern, where it is finite. -/
def finiteValue (f : Format) (b : Nat) : Option ℚ :=
  match unpack f b with
  | .fin neg m e => some (ratOf neg m e)
  | _ => none

/-- The largest finite number of a format. -/
def largest (f : Format) : ℚ := (2 - (2 : ℚ) ^ (-(f.fracBits : Int))) * (2 : ℚ) ^ bias f

/-- The least magnitude that rounds to infinity when rounding to nearest: half a place above the largest finite number. -/
def nearestLimit (f : Format) : ℚ := (2 - (2 : ℚ) ^ (-(f.fracBits : Int) - 1)) * (2 : ℚ) ^ bias f

/-- `b` is the pattern of format `f` that IEEE 754 gives for the exact number `x`, not 0, rounded once by `rm`, with gradual
underflow (P-round of R223): an infinity where the mode and the sign say so; otherwise the nearest finite number (on a tie,
the one with an even significand) or the closest one on the mode's side; a zero takes the sign of `x`. -/
def CorrectlyRounded (rm : RoundMode) (f : Format) (x : ℚ) (b : Nat) : Prop :=
  match unpack f b with
  | .nan => False
  | .inf neg =>
    match rm with
    | .nearestEven => if neg then x ≤ -nearestLimit f else nearestLimit f ≤ x
    | .towardZero => False
    | .towardPlusInf => neg = false ∧ largest f < x
    | .towardMinusInf => neg = true ∧ x < -largest f
  | .fin neg m e =>
    let y := ratOf neg m e
    (m = 0 → neg = decide (x < 0)) ∧
    match rm with
    | .nearestEven =>
      |x| < nearestLimit f ∧
      ∀ c z, finiteValue f c = some z → |x - y| ≤ |x - z| ∧ (|x - y| = |x - z| → z = y ∨ b % 2 = 0)
    | .towardZero => 0 ≤ x * y ∧ |y| ≤ |x| ∧ ∀ c z, finiteValue f c = some z → |z| ≤ |x| → |z| ≤ |y|
    | .towardPlusInf => x ≤ y ∧ ∀ c z, finiteValue f c = some z → x ≤ z → y ≤ z
    | .towardMinusInf => y ≤ x ∧ ∀ c z, finiteValue f c = some z → z ≤ x → z ≤ y

/-- `z` is the exact number `x` rounded to an integer by `rm` (P-int of R224). -/
def RoundsToInt (rm : RoundMode) (x : ℚ) (z : Int) : Prop :=
  match rm with
  | .nearestEven => |x - z| < 1 / 2 ∨ (|x - z| = 1 / 2 ∧ z % 2 = 0)
  | .towardZero => 0 ≤ x * z ∧ |(z : ℚ)| ≤ |x| ∧ |x| < |(z : ℚ)| + 1
  | .towardPlusInf => x ≤ z ∧ (z : ℚ) < x + 1
  | .towardMinusInf => (z : ℚ) ≤ x ∧ x < z + 1

/-- The relation holds of the numbers of two patterns, both not NaN, in the order of the extended numbers (R253). -/
def Ordered (rel : WithBot (WithTop ℚ) → WithBot (WithTop ℚ) → Prop) (f : Format) (a b : Nat) : Prop :=
  ∃ x y, extended (unpack f a) = some x ∧ extended (unpack f b) = some y ∧ rel x y

/-- A pattern of format `f` is a NaN. -/
def isNan (f : Format) (b : Nat) : Prop := unpack f b = .nan

/-- A pattern of format `f` is the infinity of the sign. -/
def isInf (f : Format) (neg : Bool) (b : Nat) : Prop := unpack f b = .inf neg

/-- A pattern of format `f` is the zero of the sign. -/
def isZero (f : Format) (neg : Bool) (b : Nat) : Prop := ∃ e, unpack f b = .fin neg 0 e

-- Flushing (R222)

/-- A single with a denormal replaced by the zero of its sign. -/
def flushed32 (b : BitVec 32) : BitVec 32 := if b.extractLsb' 23 8 = 0 then b &&& 0x80000000 else b

/-- A double with a denormal replaced by the zero of its sign. -/
def flushed64 (b : Word) : Word := if b.extractLsb' 52 11 = 0 then b &&& 0x8000000000000000 else b

/-- A single operand as the functions of the record see it (log 8). -/
def seen32 (fp : FpRecord) (b : BitVec 32) : BitVec 32 := if fp.flush && fp.flushOperands then flushed32 b else b

/-- A double operand as the functions of the record see it (log 8). -/
def seen64 (fp : FpRecord) (b : Word) : Word := if fp.flush && fp.flushOperands then flushed64 b else b

/-- The single `r` is `r0` flushed; of a NaN only that it is one is said (R224). -/
def IsFlushed32 (r r0 : BitVec 32) : Prop :=
  (isNan single r0.toNat → isNan single r.toNat) ∧ (¬isNan single r0.toNat → r = flushed32 r0)

/-- The double `r` is `r0` flushed; of a NaN only that it is one is said (R224). -/
def IsFlushed64 (r r0 : Word) : Prop :=
  (isNan double r0.toNat → isNan double r.toNat) ∧ (¬isNan double r0.toNat → r = flushed64 r0)

end Sys2Proof.Machine
end

