-- ==== Sys2Proof/Certificates/Slice0/Obligations.lean ====
section
/-! DEFINITION. The statements for the provers, each from numbered rules of spec/ (OBLIGATIONS.json says which). -/

open Sys2Proof Sys2Proof.Machine

/-- Every instruction of the binary level encodes to a word that decodes back to it. -/
def Obligations.DecodeUndoesEncode : Prop :=
  ∀ i : Instr, i.wellFormed = true → ∃ w, encode i = some w ∧ decode w = .ok i

/-- A word that decodes is the word its instruction encodes to. -/
def Obligations.EncodeUndoesDecode : Prop :=
  ∀ (w : IWord) (i : Instr), decode w = .ok i → i.wellFormed = true ∧ encode i = some w

/-- No word matches two rows of the opcode table, and a word that matches none is refused. -/
def Obligations.AtMostOneRowMatches : Prop :=
  (∀ (w : IWord) (r q : OpcodeRow), r ∈ opcodeRows → q ∈ opcodeRows → r.matches w = true → q.matches w = true →
    r.mnemonic = q.mnemonic) ∧
  ∀ w : IWord, (∀ r ∈ opcodeRows, r.matches w = false) → decode w = .error .wordOutsideCard

/-- The compare words: three conditions are encoded, GT and GE exchange their sources, NE has no word but a meaning. The
premise that pc does not wrap is the reading of U9 in log 12. -/
def Obligations.CompareConditionsInWords : Prop :=
  ∀ (cc : Cc) (fs ft : FReg) (s : State),
  encode (.cEqS cc fs ft) = some (0b01000110000#11 ++ ft ++ fs ++ cc ++ 0b00110010#8) ∧
  encode (.cLtS cc fs ft) = some (0b01000110000#11 ++ ft ++ fs ++ cc ++ 0b00111100#8) ∧
  encode (.cLeS cc fs ft) = some (0b01000110000#11 ++ ft ++ fs ++ cc ++ 0b00111110#8) ∧
  encode (.cEqD cc fs ft) = some (0b01000110001#11 ++ ft ++ fs ++ cc ++ 0b00110010#8) ∧
  encode (.cLtD cc fs ft) = some (0b01000110001#11 ++ ft ++ fs ++ cc ++ 0b00111100#8) ∧
  encode (.cLeD cc fs ft) = some (0b01000110001#11 ++ ft ++ fs ++ cc ++ 0b00111110#8) ∧
  encode (.cGtS cc fs ft) = encode (.cLtS cc ft fs) ∧
  encode (.cGeS cc fs ft) = encode (.cLeS cc ft fs) ∧
  exec (.cGtS cc fs ft) s = exec (.cLtS cc ft fs) s ∧
  exec (.cGeS cc fs ft) s = exec (.cLeS cc ft fs) s ∧
  encode (.cNeS cc fs ft) = none ∧
  (∀ w, decode w ≠ .ok (.cNeS cc fs ft)) ∧
  encode (.cGtD cc fs ft) = encode (.cLtD cc ft fs) ∧
  encode (.cGeD cc fs ft) = encode (.cLeD cc ft fs) ∧
  exec (.cGtD cc fs ft) s = exec (.cLtD cc ft fs) s ∧
  exec (.cGeD cc fs ft) s = exec (.cLeD cc ft fs) s ∧
  encode (.cNeD cc fs ft) = none ∧
  (∀ w, decode w ≠ .ok (.cNeD cc fs ft)) ∧
  (CanAdvance s → Completes (.cNeS cc fs ft) s (FccResult cc (!fpEq (valS s fs) (valS s ft)) s)) ∧
  (CanAdvance s → Completes (.cNeD cc fs ft) s (FccResult cc (!fpEq (valD s fs) (valD s ft)) s))

/-- Words written out from the encodings decode to the instructions they stand for. The words are those of R100, which the
spec supplies from general knowledge (log 19). -/
def Obligations.CardWordsDecode : Prop :=
  decode 0x8C410002 = .ok (.lw 1 2 2) ∧
  decode 0x0043082D = .ok (.daddu 1 2 3) ∧
  decode 0x0043082F = .ok (.dsubu 1 2 3) ∧
  decode 0x00000810 = .ok (.mfhi 1) ∧
  decode 0x40816000 = .ok (.mtc0 1 12) ∧
  decode 0x44811000 = .ok (.mtc1 1 2) ∧
  decode 0x00430824 = .ok (.and 1 2 3) ∧
  decode 0x34418000 = .ok (.ori 1 2 0x8000) ∧
  decode 0x0043082A = .ok (.slt 1 2 3) ∧
  decode 0x2C418000 = .ok (.sltiu 1 2 0x8000) ∧
  decode 0x00620814 = .ok (.dsllv 1 2 3) ∧
  decode 0x4D0620A1 = .ok (.maddD 2 8 4 6) ∧
  decode 0x46062080 = .ok (.addS 2 4 6) ∧
  decode 0x4606233C = .ok (.cLtS 3 4 6) ∧
  decode 0x45090003 = .ok (.bc1t 2 3) ∧
  decode 0x0C100040 = .ok (.jal 0x0100040) ∧
  decode 0x18200003 = .ok (.blez 1 3) ∧
  decode 0x0022180A = .ok (.movz 3 1 2) ∧
  decode 0x42000018 = .ok .eret ∧
  decode 0x0000000C = .ok (.trap 0) ∧
  decode 0x00000000 = .ok .nop ∧
  decode 0x00000038 = .ok (.dsll 0 0 0) ∧
  decode 0x00000020 = .error .wordOutsideCard

/-- The assembled branch offset, where there is one, leads the hardware to the label. -/
def Obligations.BranchOffsetReachesLabel : Prop :=
  ∀ (pc label : Word),
  (∀ offset, assembleBranch pc label = .ok offset →
    4 * offset.toInt = (label - (pc + 4)).toInt ∧ pc + 4 + (offset ++ 0b00#2).signExtend 64 = label) ∧
  ((∃ k : Int, -32768 ≤ k ∧ k ≤ 32767 ∧
      (label - (pc + 4)).toInt = 4 * k) ↔ ∃ offset, assembleBranch pc label = .ok offset)

/-- The assembled jump field, where there is one, leads the hardware to the label. -/
def Obligations.JumpFieldReachesLabel : Prop :=
  ∀ (pc label : Word),
  ((∃ index, assembleJump pc label = .ok index) ↔ label.extractLsb' 28 36 = pc.extractLsb' 28 36) ∧
  ∀ index, assembleJump pc label = .ok index →
    index.setWidth 64 = (label >>> 2) &&& 0x3FFFFFF ∧
    (label.toNat % 4 = 0 → pc.extractLsb' 28 36 ++ index ++ 0b00#2 = label)

/-- A step runs the instruction that the word at pc decodes to. -/
def Obligations.StepRunsDecodedInstruction : Prop :=
  ∀ s : State, FetchOk s →
  (∀ (a : Word) (w : IWord) (i : Instr), textAt s s.pc = some ⟨a, none⟩ → WordAtPc s w → decode w = .ok i →
    step s = exec i s) ∧
  (∀ (a : Word) (w : IWord) (r : Reject), textAt s s.pc = some ⟨a, none⟩ → WordAtPc s w → decode w = .error r →
    step s = .refused .wordOutsideCard) ∧
  (∀ (a : Word) (i : Instr), textAt s s.pc = some ⟨a, some i⟩ → step s = exec i s) ∧
  (textAt s s.pc = none → step s = .refused .fetchOutsideProgramText)

/-- A word placed where the next step fetches is the instruction the next step runs. -/
def Obligations.PlacedWordRuns : Prop :=
  ∀ (s : State) (w : IWord), FetchOk s →
  (∀ i, decode w = .ok i → step (placeWord s w) = exec i (placeWord s w)) ∧
  (∀ r, decode w = .error r → step (placeWord s w) = .refused .wordOutsideCard)

/-- A fetch checks alignment, then user access, then backing, and otherwise delivers what stands at pc. -/
def Obligations.FetchChecksInOrder : Prop :=
  ∀ s : State, atEnd s = false → mode s ≠ none →
  (s.pc.toNat % 4 ≠ 0 → Raises (.addressErrorLoad s.pc) s (step s)) ∧
  (s.pc.toNat % 4 = 0 → mode s = some .user → userAccessible s s.pc = false →
    Raises (.addressErrorLoad s.pc) s (step s)) ∧
  (s.pc.toNat % 4 = 0 → ¬(mode s = some .user ∧ userAccessible s s.pc = false) →
    (∃ i < 4, backed s (s.pc + BitVec.ofNat 64 i) = false) → Raises (.busErrorFetch s.pc) s (step s)) ∧
  (FetchOk s →
    (∀ (a : Word) (w : IWord), textAt s s.pc = some ⟨a, none⟩ → WordAtPc s w →
      step s = match decode w with
        | .ok i => exec i s
        | .error _ => .refused .wordOutsideCard) ∧
    (∀ (a : Word) (i : Instr), textAt s s.pc = some ⟨a, some i⟩ → step s = exec i s))

/-- A run exits exactly when pc is END_PC and no delay slot is pending. -/
def Obligations.RunEndsExactlyAtEndPc : Prop :=
  ∀ s : State, step s = .fault .exited ↔ s.params.endPc = some s.pc ∧ s.delay = none

/-- Kernel and User mode are read off EXL, ERL and KSU, and no step runs with another KSU. -/
def Obligations.ModeIsAFunctionOfStatus : Prop :=
  ∀ s : State,
  (mode s = some .kernel ↔
    s.status.getLsbD 1 = true ∨ s.status.getLsbD 2 = true ∨ s.status.extractLsb' 3 2 = 0b00) ∧
  (mode s = some .user ↔
    s.status.getLsbD 1 = false ∧ s.status.getLsbD 2 = false ∧ s.status.extractLsb' 3 2 = 0b10) ∧
  (s.status.getLsbD 1 = false → s.status.getLsbD 2 = false →
    (s.status.extractLsb' 3 2 = 0b01 ∨ s.status.extractLsb' 3 2 = 0b11) → atEnd s = false →
    step s = .refused .modeNotModelled)

/-- Every step keeps the invariant. -/
def Obligations.StepKeepsInvariant : Prop :=
  ∀ s t : State, StateInv s → step s = .next t → StateInv t

/-- The machine right after reset meets the invariant. -/
def Obligations.ResetMeetsInvariant : Prop :=
  StateInv State.reset ∧ ∀ (resetPc : Word) (params : Params), StateInv (State.resetWith resetPc params)

/-- Architectural reset: pc, ERL and Kernel mode, no delay slot, x[0]. -/
def Obligations.ResetFixesWhatTheSpecFixes : Prop :=
  (∀ (resetPc : Word) (params : Params),
    (State.resetWith resetPc params).pc = resetPc ∧
    (State.resetWith resetPc params).status.getLsbD 2 = true ∧
    mode (State.resetWith resetPc params) = some .kernel ∧
    (State.resetWith resetPc params).delay = none ∧
    readGpr (State.resetWith resetPc params) 0 = 0) ∧
  State.reset.pc = 0xFFFFFFFFBFC00000

/-- Launch sets pc, delay, the mode bits and END_PC, keeps the unnamed registers, and keeps the invariant. That an unnamed
register and Status bits 63..5 keep their values is the choice of the model in log 27 (DEDUCED): Table 10-1 calls them
unspecified. -/
def Obligations.LaunchBuildsTheFirstState : Prop :=
  ∀ (l : Launch) (s : State),
  (launch l s).pc = l.entryPc ∧ (launch l s).delay = none ∧
  (launch l s).status.getLsbD 0 = false ∧ (launch l s).status.getLsbD 1 = false ∧
  (launch l s).status.getLsbD 2 = false ∧ mode (launch l s) = some l.entryMode ∧
  (∀ k, 5 ≤ k → k < 64 → (launch l s).status.getLsbD k = s.status.getLsbD k) ∧
  (launch l s).params = { l.params with endPc := some l.endPc } ∧
  (∀ r, (∀ p ∈ l.gprs, p.1 ≠ r) → readGpr (launch l s) r = readGpr s r) ∧
  (∀ r v, r ≠ 0 → (l.gprs.map Prod.fst).Nodup → (r, v) ∈ l.gprs → readGpr (launch l s) r = v) ∧
  (∀ r, (∀ p ∈ l.fprs, p.1 ≠ r) → readFpr (launch l s) r = readFpr s r) ∧
  (∀ r v, (l.fprs.map Prod.fst).Nodup → (r, v) ∈ l.fprs → readFpr (launch l s) r = v) ∧
  (StateInv s → StateInv (launch l s))

/-- No step changes the parameters, the program text or a byte inside it. -/
def Obligations.StepKeepsProgramAndParameters : Prop :=
  ∀ s t : State, step s = .next t →
  t.params = s.params ∧ t.text = s.text ∧
  ∀ slot ∈ s.text, ∀ i < 4, t.mem.lookup (slot.addr.toNat + i) = s.mem.lookup (slot.addr.toNat + i)

/-- In User mode a step changes no coprocessor-0 register, except by taking an exception. -/
def Obligations.UserModeLeavesC0Alone : Prop :=
  ∀ s t : State, mode s = some .user → step s = .next t →
  (t.status = s.status ∧ t.cause = s.cause ∧ t.epc = s.epc ∧ t.badVAddr = s.badVAddr ∧ mode t = some .user) ∨
  ∃ e, TrapEntered e s t

/-- In User mode nothing a step does depends on Cause, EPC, BadVAddr or the uninterpreted Status bits. -/
def Obligations.UserModeCannotSeeC0 : Prop :=
  ∀ s : State, mode s = some .user → sameButC0 (step s) (step (hideC0 s))

/-- x[0] reads as 0 and a write to it is discarded, all other effects of the instruction standing. The premise that pc does
not wrap is the reading of U9 in log 12. -/
def Obligations.RegisterZeroReadsZero : Prop :=
  ∀ (rd rs rt : Reg) (imm offset : Imm) (sa : Shamt) (cs : CReg) (fs : FReg) (v : Word) (s : State),
  readGpr s 0 = 0 ∧
  writeGpr s 0 v = s ∧
  exec (.lui 0 imm) s = exec .nop s ∧
  exec (.daddu 0 rs rt) s = exec .nop s ∧
  exec (.daddiu 0 rs imm) s = exec .nop s ∧
  exec (.dsubu 0 rs rt) s = exec .nop s ∧
  exec (.mfhi 0) s = exec .nop s ∧
  exec (.mflo 0) s = exec .nop s ∧
  exec (.mfc1 0 fs) s = exec .nop s ∧
  exec (.dmfc1 0 fs) s = exec .nop s ∧
  exec (.and 0 rs rt) s = exec .nop s ∧
  exec (.or 0 rs rt) s = exec .nop s ∧
  exec (.xor 0 rs rt) s = exec .nop s ∧
  exec (.nor 0 rs rt) s = exec .nop s ∧
  exec (.andi 0 rs imm) s = exec .nop s ∧
  exec (.ori 0 rs imm) s = exec .nop s ∧
  exec (.xori 0 rs imm) s = exec .nop s ∧
  exec (.dsllv 0 rs rt) s = exec .nop s ∧
  exec (.dsrlv 0 rs rt) s = exec .nop s ∧
  exec (.dsrav 0 rs rt) s = exec .nop s ∧
  exec (.dsll 0 rs sa) s = exec .nop s ∧
  exec (.dsrl 0 rs sa) s = exec .nop s ∧
  exec (.dsra 0 rs sa) s = exec .nop s ∧
  exec (.movz 0 rs rt) s = exec .nop s ∧
  exec (.movn 0 rs rt) s = exec .nop s ∧
  exec (.slt 0 rs rt) s = exec .nop s ∧
  exec (.sltu 0 rs rt) s = exec .nop s ∧
  exec (.slti 0 rs imm) s = exec .nop s ∧
  exec (.sltiu 0 rs imm) s = exec .nop s ∧
  (AccessOk (addressOf s rs offset) 1 s → CanAdvance s → Completes (.lb 0 offset rs) s (OnlyAdvances s)) ∧
  (¬AccessOk (addressOf s rs offset) 1 s → exec (.lb 0 offset rs) s = exec (.lb rd offset rs) s) ∧
  (AccessOk (addressOf s rs offset) 1 s → CanAdvance s → Completes (.lbu 0 offset rs) s (OnlyAdvances s)) ∧
  (¬AccessOk (addressOf s rs offset) 1 s → exec (.lbu 0 offset rs) s = exec (.lbu rd offset rs) s) ∧
  (AccessOk (addressOf s rs offset) 2 s → CanAdvance s → Completes (.lh 0 offset rs) s (OnlyAdvances s)) ∧
  (¬AccessOk (addressOf s rs offset) 2 s → exec (.lh 0 offset rs) s = exec (.lh rd offset rs) s) ∧
  (AccessOk (addressOf s rs offset) 2 s → CanAdvance s → Completes (.lhu 0 offset rs) s (OnlyAdvances s)) ∧
  (¬AccessOk (addressOf s rs offset) 2 s → exec (.lhu 0 offset rs) s = exec (.lhu rd offset rs) s) ∧
  (AccessOk (addressOf s rs offset) 4 s → CanAdvance s → Completes (.lw 0 offset rs) s (OnlyAdvances s)) ∧
  (¬AccessOk (addressOf s rs offset) 4 s → exec (.lw 0 offset rs) s = exec (.lw rd offset rs) s) ∧
  (AccessOk (addressOf s rs offset) 4 s → CanAdvance s → Completes (.lwu 0 offset rs) s (OnlyAdvances s)) ∧
  (¬AccessOk (addressOf s rs offset) 4 s → exec (.lwu 0 offset rs) s = exec (.lwu rd offset rs) s) ∧
  (AccessOk (addressOf s rs offset) 8 s → CanAdvance s → Completes (.ld 0 offset rs) s (OnlyAdvances s)) ∧
  (¬AccessOk (addressOf s rs offset) 8 s → exec (.ld 0 offset rs) s = exec (.ld rd offset rs) s) ∧
  (mode s = some .kernel → C0Number cs → CanAdvance s → Completes (.mfc0 0 cs) s (OnlyAdvances s)) ∧
  (¬(mode s = some .kernel ∧ C0Number cs) → exec (.mfc0 0 cs) s = exec (.mfc0 rd cs) s) ∧
  (mode s = some .kernel → C0Number cs → CanAdvance s → Completes (.dmfc0 0 cs) s (OnlyAdvances s)) ∧
  (¬(mode s = some .kernel ∧ C0Number cs) → exec (.dmfc0 0 cs) s = exec (.dmfc0 rd cs) s)

/-- Taking an exception: EPC, Cause, BadVAddr, EXL, delay and pc, and nothing else. -/
def Obligations.TrapEntryWritesWhatR296Says : Prop :=
  ∀ (e : Exn) (s : State), Raises e s (raise e s)

/-- TRAP raises Trap in every state and mode, with ExcCode 8, and no other instruction does. The words are those of R100,
which the spec supplies from general knowledge (log 19). -/
def Obligations.TrapIsTheOnlySourceOfTrap : Prop :=
  (∀ code : TrapCode, encode (.trap code) = some (0b000000#6 ++ code ++ 0b001100#6)) ∧
  (∀ (code : TrapCode) (s : State), s.params.hostTraps = false →
    ∃ t, exec (.trap code) s = .next t ∧ TrapEntered .trap s t ∧ t.cause.excCode = 8) ∧
  (∀ (code : TrapCode) (s : State), s.params.hostTraps = true → exec (.trap code) s = .fault (.trapped .trap s.pc)) ∧
  (∀ (i : Instr) (s : State) (pc : Word), exec i s = .fault (.trapped .trap pc) → ∃ code, i = .trap code) ∧
  (∀ (i : Instr) (s t : State), (∀ code, i ≠ .trap code) → exec i s = .next t →
    (s.params.hostTraps = false ∧ ∃ e, e ≠ .trap ∧ TrapEntered e s t) ∨ NoException i s t) ∧
  ∀ s : State, fetch s ≠ .error (.raise .trap)

/-- An instruction raises only what Table 60-1 gives it, at its own pc and for its own address. -/
def Obligations.ExceptionsHaveTheirCauses : Prop :=
  (∀ (i : Instr) (s : State) (e : Exn) (p : Word), exec i s = .fault (.trapped e p) →
    s.params.hostTraps = true ∧ p = s.pc ∧ HasCause i s e) ∧
  ∀ (i : Instr) (s t : State), exec i s = .next t →
    (s.params.hostTraps = false ∧ ∃ e, HasCause i s e ∧ TrapEntered e s t) ∨ NoException i s t

/-- The c0 moves and ERET raise CoprocessorUnusable(0) in User mode, whatever register they name. -/
def Obligations.KernelInstructionsTrapInUserMode : Prop :=
  ∀ (i : Instr) (s : State), kernelInstr i = true → mode s = some .user → (i = .eret → s.delay = none) →
  Raises (.coprocessorUnusable 0) s (exec i s)

/-- ERET: pc <- EPC and EXL <- 0 in Kernel mode; it raises in User mode and is refused with ERL = 1 or in a delay slot. The
words are those of R100, which the spec supplies from general knowledge (log 19). -/
def Obligations.EretReturnsToEpc : Prop :=
  encode .eret = some 0b01000010000000000000000000011000#32 ∧
  ∀ s : State,
    (s.delay ≠ none → exec .eret s = .refused .controlTransferInDelaySlot) ∧
    (s.delay = none → mode s = some .user → Raises (.coprocessorUnusable 0) s (exec .eret s)) ∧
    (s.delay = none → mode s = some .kernel → s.status.getLsbD 2 = true → exec .eret s = .refused .eretWithErl) ∧
    (s.delay = none → mode s = some .kernel → s.status.getLsbD 2 = false →
      ∃ t, exec .eret s = .next t ∧ t.pc = s.epc ∧ t.delay = none ∧
        (∀ k, k < 64 → t.status.getLsbD k = (k != 1 && s.status.getLsbD k)) ∧
        (s.status.extractLsb' 3 2 = 0b10 → mode t = some .user) ∧
        (s.status.extractLsb' 3 2 = 0b00 → mode t = some .kernel) ∧
        KeepsAllBut [.status] s t)

/-- An exception followed at once by ERET leaves everything as before it, but for Cause, EPC and BadVAddr. -/
def Obligations.ExceptionThenEretReturns : Prop :=
  ∀ (e : Exn) (s : State), exl s = false → erl s = false → mode s ≠ none → s.params.hostTraps = false →
  ∃ t u, raise e s = .next t ∧ exec .eret t = .next u ∧
    (s.delay = none → u.pc = s.pc) ∧ (s.delay ≠ none → u.pc = s.pc - 4) ∧ u.delay = none ∧
    mode u = mode s ∧ KeepsAllBut [.cause, .epc, .badVAddr] s u

/-- MFC0 and DMFC0: the register read, its sign extension, the privilege check and the registers refused. The words are those
of R100, which the spec supplies from general knowledge (log 19). The premise that pc does not wrap is the reading of U9 in
log 12. -/
def Obligations.MovesFromC0 : Prop :=
  ∀ (rd : Reg) (cs : CReg) (s : State),
  encode (.mfc0 rd cs) = some (0b01000000000#11 ++ rd ++ cs ++ 0b00000000000#11) ∧
  encode (.dmfc0 rd cs) = some (0b01000000001#11 ++ rd ++ cs ++ 0b00000000000#11) ∧
  (mode s = some .user →
    Raises (.coprocessorUnusable 0) s (exec (.mfc0 rd cs) s) ∧
        Raises (.coprocessorUnusable 0) s (exec (.dmfc0 rd cs) s)) ∧
  (mode s = some .kernel → ¬C0Number cs →
    exec (.mfc0 rd cs) s = .refused .c0RegisterNotModelled ∧ exec (.dmfc0 rd cs) s = .refused .c0RegisterNotModelled) ∧
  (mode s = some .kernel → C0Number cs → CanAdvance s → ∃ v, C0Reads s cs v ∧
    Completes (.mfc0 rd cs) s (GprResult rd ((v.extractLsb' 0 32).signExtend 64) s) ∧
    Completes (.dmfc0 rd cs) s (GprResult rd v s))

/-- MTC0 and DMTC0: what Status and EPC become, what is discarded, the privilege check and the registers refused. The words
are those of R100, which the spec supplies from general knowledge (log 19). The premise that pc does not wrap is the reading
of U9 in log 12. -/
def Obligations.MovesToC0 : Prop :=
  ∀ (rs : Reg) (cd : CReg) (s : State),
  encode (.mtc0 rs cd) = some (0b01000000100#11 ++ rs ++ cd ++ 0b00000000000#11) ∧
  encode (.dmtc0 rs cd) = some (0b01000000101#11 ++ rs ++ cd ++ 0b00000000000#11) ∧
  (mode s = some .user →
    Raises (.coprocessorUnusable 0) s (exec (.mtc0 rs cd) s) ∧
        Raises (.coprocessorUnusable 0) s (exec (.dmtc0 rs cd) s)) ∧
  (mode s = some .kernel → ¬C0Number cd →
    exec (.mtc0 rs cd) s = .refused .c0RegisterNotModelled ∧ exec (.dmtc0 rs cd) s = .refused .c0RegisterNotModelled) ∧
  (mode s = some .kernel → CanAdvance s → (cd = 8 ∨ cd = 13) →
    Completes (.mtc0 rs cd) s (OnlyAdvances s) ∧ Completes (.dmtc0 rs cd) s (OnlyAdvances s)) ∧
  (mode s = some .kernel → CanAdvance s → cd = 12 →
    Completes (.mtc0 rs cd) s (fun t => t.status.extractLsb' 0 32 = (readGpr s rs).extractLsb' 0 32 ∧
      KeepsAllBut [.status] s t ∧ InOrder s t) ∧
    Completes (.dmtc0 rs cd) s (fun t => t.status = readGpr s rs ∧ KeepsAllBut [.status] s t ∧ InOrder s t)) ∧
  (mode s = some .kernel → CanAdvance s → cd = 14 →
    Completes (.mtc0 rs cd) s (fun t => t.epc.extractLsb' 0 32 = (readGpr s rs).extractLsb' 0 32 ∧
      KeepsAllBut [.epc] s t ∧ InOrder s t) ∧
    Completes (.dmtc0 rs cd) s (fun t => t.epc = readGpr s rs ∧ KeepsAllBut [.epc] s t ∧ InOrder s t))

/-- DADDU, DADDIU, DSUBU: words, results modulo 2^64 and frame. The words are those of R100, which the spec supplies from
general knowledge (log 19). The premise that pc does not wrap is the reading of U9 in log 12. -/
def Obligations.AddAndSubtract : Prop :=
  ∀ (rd rs rt : Reg) (imm : Imm) (s : State),
  encode (.daddu rd rs rt) = some (0b000000#6 ++ rs ++ rt ++ rd ++ 0b00000101101#11) ∧
  (CanAdvance s → Completes (.daddu rd rs rt) s (GprResult rd (readGpr s rs + readGpr s rt) s)) ∧
  encode (.daddiu rd rs imm) = some (0b011001#6 ++ rs ++ rd ++ imm) ∧
  (CanAdvance s → Completes (.daddiu rd rs imm) s (GprResult rd (readGpr s rs + imm.signExtend 64) s)) ∧
  encode (.dsubu rd rs rt) = some (0b000000#6 ++ rs ++ rt ++ rd ++ 0b00000101111#11) ∧
  (CanAdvance s → Completes (.dsubu rd rs rt) s (GprResult rd (readGpr s rs - readGpr s rt) s))

/-- DMULT and DMULTU leave the exact 128-bit product in hi and lo. The words are those of R100, which the spec supplies from
general knowledge (log 19). The premise that pc does not wrap is the reading of U9 in log 12. -/
def Obligations.MultiplyGivesExactProduct : Prop :=
  ∀ (rs rt : Reg) (s : State),
  encode (.dmult rs rt) = some (0b000000#6 ++ rs ++ rt ++ 0b0000000000011100#16) ∧
  (CanAdvance s → Completes (.dmult rs rt) s (HiLoResult (fun hi lo => (hi ++
      lo).toInt = (readGpr s rs).toInt * (readGpr s rt).toInt) s)) ∧
  encode (.dmultu rs rt) = some (0b000000#6 ++ rs ++ rt ++ 0b0000000000011101#16) ∧
  (CanAdvance s → Completes (.dmultu rs rt) s (HiLoResult (fun hi lo => (hi ++
      lo).toNat = (readGpr s rs).toNat * (readGpr s rt).toNat) s))

/-- DDIV and DDIVU: quotient in lo, remainder in hi, and completion on every operand. The words are those of R100, which the
spec supplies from general knowledge (log 19). The premise that pc does not wrap is the reading of U9 in log 12. -/
def Obligations.DivideGivesQuotientAndRemainder : Prop :=
  ∀ (rs rt : Reg) (s : State),
  encode (.ddiv rs rt) = some (0b000000#6 ++ rs ++ rt ++ 0b0000000000011110#16) ∧
  (CanAdvance s → readGpr s rt ≠ 0 → ¬(readGpr s rs = 0x8000000000000000 ∧ readGpr s rt = 0xFFFFFFFFFFFFFFFF) →
    Completes (.ddiv rs rt) s (HiLoResult (fun hi lo =>
      (readGpr s rs).toInt = lo.toInt * (readGpr s rt).toInt + hi.toInt ∧ |hi.toInt| < |(readGpr s rt).toInt| ∧
      (hi.toInt = 0 ∨ (hi.toInt < 0 ↔ (readGpr s rs).toInt < 0))) s)) ∧
  (CanAdvance s → Completes (.ddiv rs rt) s (HiLoResult (fun _ _ => True) s)) ∧
  encode (.ddivu rs rt) = some (0b000000#6 ++ rs ++ rt ++ 0b0000000000011111#16) ∧
  (CanAdvance s → readGpr s rt ≠ 0 → Completes (.ddivu rs rt) s (HiLoResult (fun hi lo =>
    lo.toNat = (readGpr s rs).toNat / (readGpr s rt).toNat ∧
        hi.toNat = (readGpr s rs).toNat % (readGpr s rt).toNat) s)) ∧
  (CanAdvance s → Completes (.ddivu rs rt) s (HiLoResult (fun _ _ => True) s))

/-- MADD in both of its readings, and its refusal. The words are those of R100, which the spec supplies from general
knowledge (log 19). The premise that pc does not wrap is the reading of U9 in log 12. -/
def Obligations.MultiplyAccumulate : Prop :=
  ∀ (rs rt : Reg) (s : State),
  encode (.madd rs rt) = some (0b011100#6 ++ rs ++ rt ++ 0b0000000000000000#16) ∧
  (s.params.maddMode = .mips32 →
    (readGpr s rs ≠ ((readGpr s rs).extractLsb' 0 32).signExtend 64 ∨
      readGpr s rt ≠ ((readGpr s rt).extractLsb' 0 32).signExtend 64) →
    exec (.madd rs rt) s = .refused .maddOperandNot32bit) ∧
  (s.params.maddMode = .mips32 → CanAdvance s →
    readGpr s rs = ((readGpr s rs).extractLsb' 0 32).signExtend 64 →
    readGpr s rt = ((readGpr s rt).extractLsb' 0 32).signExtend 64 →
    Completes (.madd rs rt) s (HiLoResult (fun hi lo =>
      ∃ r : Word,
        r = BitVec.ofInt 64 ((s.hi.extractLsb' 0 32 ++ s.lo.extractLsb' 0 32).toNat +
          ((readGpr s rs).extractLsb' 0 32).toInt * ((readGpr s rt).extractLsb' 0 32).toInt) ∧
        hi = (r.extractLsb' 32 32).signExtend 64 ∧ lo = (r.extractLsb' 0 32).signExtend 64) s)) ∧
  (s.params.maddMode = .wide128 → CanAdvance s →
    Completes (.madd rs rt) s (HiLoResult (fun hi lo =>
      hi ++ lo = BitVec.ofInt 128 ((s.hi ++ s.lo).toNat + (readGpr s rs).toInt * (readGpr s rt).toInt)) s))

/-- MFHI, MFLO, MTHI, MTLO: words, results and frame. The words are those of R100, which the spec supplies from general
knowledge (log 19). The premise that pc does not wrap is the reading of U9 in log 12. -/
def Obligations.HiLoMoves : Prop :=
  ∀ (rd rs : Reg) (s : State),
  encode (.mfhi rd) = some (0b0000000000000000#16 ++ rd ++ 0b00000010000#11) ∧
  (CanAdvance s → Completes (.mfhi rd) s (GprResult rd s.hi s)) ∧
  encode (.mflo rd) = some (0b0000000000000000#16 ++ rd ++ 0b00000010010#11) ∧
  (CanAdvance s → Completes (.mflo rd) s (GprResult rd s.lo s)) ∧
  encode (.mthi rs) = some (0b000000#6 ++ rs ++ 0b000000000000000010001#21) ∧
  (CanAdvance s → Completes (.mthi rs) s (HiLoResult (fun hi lo => hi = readGpr s rs ∧ lo = s.lo) s)) ∧
  encode (.mtlo rs) = some (0b000000#6 ++ rs ++ 0b000000000000000010011#21) ∧
  (CanAdvance s → Completes (.mtlo rs) s (HiLoResult (fun hi lo => hi = s.hi ∧ lo = readGpr s rs) s))

/-- MFC1, MTC1, DMFC1, DMTC1, MOV.S, MOV.D: words, results and frame. The words are those of R100, which the spec supplies
from general knowledge (log 19). The premise that pc does not wrap is the reading of U9 in log 12. -/
def Obligations.FloatingPointMoves : Prop :=
  ∀ (rd rs : Reg) (fd fs : FReg) (s : State),
  encode (.mfc1 rd fs) = some (0b01000100000#11 ++ rd ++ fs ++ 0b00000000000#11) ∧
  (CanAdvance s → Completes (.mfc1 rd fs) s (GprResult rd (((readFpr s fs).extractLsb' 0 32).signExtend 64) s)) ∧
  encode (.mtc1 rs fd) = some (0b01000100100#11 ++ rs ++ fd ++ 0b00000000000#11) ∧
  (CanAdvance s → Completes (.mtc1 rs fd) s (FprLowResult fd ((readGpr s rs).extractLsb' 0 32) s)) ∧
  encode (.dmfc1 rd fs) = some (0b01000100001#11 ++ rd ++ fs ++ 0b00000000000#11) ∧
  (CanAdvance s → Completes (.dmfc1 rd fs) s (GprResult rd (readFpr s fs) s)) ∧
  encode (.dmtc1 rs fd) = some (0b01000100101#11 ++ rs ++ fd ++ 0b00000000000#11) ∧
  (CanAdvance s → Completes (.dmtc1 rs fd) s (FprResult fd (readGpr s rs) s)) ∧
  encode (.movS fd fs) = some (0b0100011000000000#16 ++ fs ++ fd ++ 0b000110#6) ∧
  (CanAdvance s → Completes (.movS fd fs) s (FprLowResult fd ((readFpr s fs).extractLsb' 0 32) s)) ∧
  encode (.movD fd fs) = some (0b0100011000100000#16 ++ fs ++ fd ++ 0b000110#6) ∧
  (CanAdvance s → Completes (.movD fd fs) s (FprResult fd (readFpr s fs) s))

/-- AND, OR, XOR, NOR, ANDI, ORI, XORI: words, results and frame. The words are those of R100, which the spec supplies from
general knowledge (log 19). The premise that pc does not wrap is the reading of U9 in log 12. -/
def Obligations.LogicalInstructions : Prop :=
  ∀ (rd rs rt : Reg) (imm : Imm) (s : State),
  encode (.and rd rs rt) = some (0b000000#6 ++ rs ++ rt ++ rd ++ 0b00000100100#11) ∧
  (CanAdvance s → Completes (.and rd rs rt) s (GprResult rd (readGpr s rs &&& readGpr s rt) s)) ∧
  encode (.or rd rs rt) = some (0b000000#6 ++ rs ++ rt ++ rd ++ 0b00000100101#11) ∧
  (CanAdvance s → Completes (.or rd rs rt) s (GprResult rd (readGpr s rs ||| readGpr s rt) s)) ∧
  encode (.xor rd rs rt) = some (0b000000#6 ++ rs ++ rt ++ rd ++ 0b00000100110#11) ∧
  (CanAdvance s → Completes (.xor rd rs rt) s (GprResult rd (readGpr s rs ^^^ readGpr s rt) s)) ∧
  encode (.nor rd rs rt) = some (0b000000#6 ++ rs ++ rt ++ rd ++ 0b00000100111#11) ∧
  (CanAdvance s → Completes (.nor rd rs rt) s (GprResult rd (~~~(readGpr s rs ||| readGpr s rt)) s)) ∧
  encode (.andi rd rs imm) = some (0b001100#6 ++ rs ++ rd ++ imm) ∧
  (CanAdvance s → Completes (.andi rd rs imm) s (GprResult rd (readGpr s rs &&& imm.setWidth 64) s)) ∧
  encode (.ori rd rs imm) = some (0b001101#6 ++ rs ++ rd ++ imm) ∧
  (CanAdvance s → Completes (.ori rd rs imm) s (GprResult rd (readGpr s rs ||| imm.setWidth 64) s)) ∧
  encode (.xori rd rs imm) = some (0b001110#6 ++ rs ++ rd ++ imm) ∧
  (CanAdvance s → Completes (.xori rd rs imm) s (GprResult rd (readGpr s rs ^^^ imm.setWidth 64) s))

/-- The six shifts, bit by bit: amounts, fill, words and frame. The words are those of R100, which the spec supplies from
general knowledge (log 19). The premise that pc does not wrap is the reading of U9 in log 12. -/
def Obligations.ShiftInstructions : Prop :=
  ∀ (rd rs rt : Reg) (sa : Shamt) (s : State),
  encode (.dsllv rd rs rt) = some (0b000000#6 ++ rt ++ rs ++ rd ++ 0b00000010100#11) ∧
  (CanAdvance s → ∃ v, Completes (.dsllv rd rs rt) s (GprResult rd v s) ∧ ∀ i, i < 64 → v.getLsbD i =
    (decide (((readGpr s rt).extractLsb' 0 6).toNat ≤ i) && (readGpr s rs).getLsbD (i - ((readGpr s rt).extractLsb' 0 6).toNat))) ∧
  encode (.dsrlv rd rs rt) = some (0b000000#6 ++ rt ++ rs ++ rd ++ 0b00000010110#11) ∧
  (CanAdvance s → ∃ v, Completes (.dsrlv rd rs rt) s (GprResult rd v s) ∧ ∀ i, i < 64 → v.getLsbD i =
    (readGpr s rs).getLsbD (i + ((readGpr s rt).extractLsb' 0 6).toNat)) ∧
  encode (.dsrav rd rs rt) = some (0b000000#6 ++ rt ++ rs ++ rd ++ 0b00000010111#11) ∧
  (CanAdvance s → ∃ v, Completes (.dsrav rd rs rt) s (GprResult rd v s) ∧ ∀ i, i < 64 → v.getLsbD i =
    if i + ((readGpr s rt).extractLsb' 0 6).toNat < 64 then (readGpr s rs).getLsbD (i + ((readGpr s rt).extractLsb' 0 6).toNat)
      else (readGpr s rs).getLsbD 63) ∧
  encode (.dsll rd rs sa) = some (0b00000000000#11 ++ rs ++ rd ++ sa ++ 0b111000#6) ∧
  (CanAdvance s → ∃ v, Completes (.dsll rd rs sa) s (GprResult rd v s) ∧ ∀ i, i < 64 → v.getLsbD i =
    (decide (sa.toNat ≤ i) && (readGpr s rs).getLsbD (i - sa.toNat))) ∧
  encode (.dsrl rd rs sa) = some (0b00000000000#11 ++ rs ++ rd ++ sa ++ 0b111010#6) ∧
  (CanAdvance s → ∃ v, Completes (.dsrl rd rs sa) s (GprResult rd v s) ∧ ∀ i, i < 64 → v.getLsbD i =
    (readGpr s rs).getLsbD (i + sa.toNat)) ∧
  encode (.dsra rd rs sa) = some (0b00000000000#11 ++ rs ++ rd ++ sa ++ 0b111011#6) ∧
  (CanAdvance s → ∃ v, Completes (.dsra rd rs sa) s (GprResult rd v s) ∧ ∀ i, i < 64 → v.getLsbD i =
    if i + sa.toNat < 64 then (readGpr s rs).getLsbD (i + sa.toNat)
      else (readGpr s rs).getLsbD 63)

/-- SLT, SLTU, SLTI, SLTIU: words, results and frame. The words are those of R100, which the spec supplies from general
knowledge (log 19). The premise that pc does not wrap is the reading of U9 in log 12. -/
def Obligations.SetOnCondition : Prop :=
  ∀ (rd rs rt : Reg) (imm : Imm) (s : State),
  encode (.slt rd rs rt) = some (0b000000#6 ++ rs ++ rt ++ rd ++ 0b00000101010#11) ∧
  (CanAdvance s →
      Completes (.slt rd rs rt) s (GprResult rd (if (readGpr s rs).toInt < (readGpr s rt).toInt then 1 else 0) s)) ∧
  encode (.sltu rd rs rt) = some (0b000000#6 ++ rs ++ rt ++ rd ++ 0b00000101011#11) ∧
  (CanAdvance s →
      Completes (.sltu rd rs rt) s (GprResult rd (if (readGpr s rs).toNat < (readGpr s rt).toNat then 1 else 0) s)) ∧
  encode (.slti rd rs imm) = some (0b001010#6 ++ rs ++ rd ++ imm) ∧
  (CanAdvance s → Completes (.slti rd rs imm) s (GprResult rd (if (readGpr s rs).toInt < imm.toInt then 1 else 0) s)) ∧
  encode (.sltiu rd rs imm) = some (0b001011#6 ++ rs ++ rd ++ imm) ∧
  (CanAdvance s →
      Completes (.sltiu rd rs imm) s (GprResult rd (if (readGpr s rs).toNat < (imm.signExtend 64).toNat then 1 else 0) s))

/-- MOVZ and MOVN move or leave RD, and advance either way. The words are those of R100, which the spec supplies from general
knowledge (log 19). The premise that pc does not wrap is the reading of U9 in log 12. -/
def Obligations.ConditionalMoves : Prop :=
  ∀ (rd rs rt : Reg) (s : State),
  encode (.movz rd rs rt) = some (0b000000#6 ++ rs ++ rt ++ rd ++ 0b00000001010#11) ∧
  (CanAdvance s → readGpr s rt = 0 → Completes (.movz rd rs rt) s (GprResult rd (readGpr s rs) s)) ∧
  (CanAdvance s → readGpr s rt ≠ 0 → Completes (.movz rd rs rt) s (OnlyAdvances s)) ∧
  encode (.movn rd rs rt) = some (0b000000#6 ++ rs ++ rt ++ rd ++ 0b00000001011#11) ∧
  (CanAdvance s → readGpr s rt ≠ 0 → Completes (.movn rd rs rt) s (GprResult rd (readGpr s rs) s)) ∧
  (CanAdvance s → readGpr s rt = 0 → Completes (.movn rd rs rt) s (OnlyAdvances s))

/-- LUI: the word, the sign-extended constant and the frame. The words are those of R100, which the spec supplies from
general knowledge (log 19). The premise that pc does not wrap is the reading of U9 in log 12. -/
def Obligations.LoadUpperImmediate : Prop :=
  ∀ (rd : Reg) (imm : Imm) (s : State),
  encode (.lui rd imm) = some (0b00111100000#11 ++ rd ++ imm) ∧
  (CanAdvance s → Completes (.lui rd imm) s (GprResult rd ((imm ++ 0#16).signExtend 64) s))

/-- NOP is the zero word and changes nothing but pc and delay. The words are those of R100, which the spec supplies from
general knowledge (log 19). The premise that pc does not wrap is the reading of U9 in log 12. -/
def Obligations.NopOnlyAdvances : Prop :=
  ∀ s : State,
  encode .nop = some 0b00000000000000000000000000000000#32 ∧
  (CanAdvance s → Completes .nop s (OnlyAdvances s))

/-- LB to LD: the bytes read, their order and extension, what stops them, words and frame. The words are those of R100, which
the spec supplies from general knowledge (log 19). The premise that pc does not wrap is the reading of U9 in log 12. -/
def Obligations.IntegerLoads : Prop :=
  ∀ (rd rs : Reg) (offset : Imm) (s : State),
  encode (.lb rd offset rs) = some (0b100000#6 ++ rs ++ rd ++ offset) ∧
  (AccessOk (addressOf s rs offset) 1 s → CanAdvance s → ∃ b, Holds s (addressOf s rs offset) 1 b ∧
    Completes (.lb rd offset rs) s (GprResult rd ((b 0).signExtend 64) s)) ∧
  LoadStops (addressOf s rs offset) 1 s (exec (.lb rd offset rs) s) ∧
  encode (.lbu rd offset rs) = some (0b100100#6 ++ rs ++ rd ++ offset) ∧
  (AccessOk (addressOf s rs offset) 1 s → CanAdvance s → ∃ b, Holds s (addressOf s rs offset) 1 b ∧
    Completes (.lbu rd offset rs) s (GprResult rd ((b 0).setWidth 64) s)) ∧
  LoadStops (addressOf s rs offset) 1 s (exec (.lbu rd offset rs) s) ∧
  encode (.lh rd offset rs) = some (0b100001#6 ++ rs ++ rd ++ offset) ∧
  (AccessOk (addressOf s rs offset) 2 s → CanAdvance s → ∃ b, Holds s (addressOf s rs offset) 2 b ∧
    Completes (.lh rd offset rs) s (GprResult rd ((halfOf s.params.endian b).signExtend 64) s)) ∧
  LoadStops (addressOf s rs offset) 2 s (exec (.lh rd offset rs) s) ∧
  encode (.lhu rd offset rs) = some (0b100101#6 ++ rs ++ rd ++ offset) ∧
  (AccessOk (addressOf s rs offset) 2 s → CanAdvance s → ∃ b, Holds s (addressOf s rs offset) 2 b ∧
    Completes (.lhu rd offset rs) s (GprResult rd ((halfOf s.params.endian b).setWidth 64) s)) ∧
  LoadStops (addressOf s rs offset) 2 s (exec (.lhu rd offset rs) s) ∧
  encode (.lw rd offset rs) = some (0b100011#6 ++ rs ++ rd ++ offset) ∧
  (AccessOk (addressOf s rs offset) 4 s → CanAdvance s → ∃ b, Holds s (addressOf s rs offset) 4 b ∧
    Completes (.lw rd offset rs) s (GprResult rd ((wordOf s.params.endian b).signExtend 64) s)) ∧
  LoadStops (addressOf s rs offset) 4 s (exec (.lw rd offset rs) s) ∧
  encode (.lwu rd offset rs) = some (0b100111#6 ++ rs ++ rd ++ offset) ∧
  (AccessOk (addressOf s rs offset) 4 s → CanAdvance s → ∃ b, Holds s (addressOf s rs offset) 4 b ∧
    Completes (.lwu rd offset rs) s (GprResult rd ((wordOf s.params.endian b).setWidth 64) s)) ∧
  LoadStops (addressOf s rs offset) 4 s (exec (.lwu rd offset rs) s) ∧
  encode (.ld rd offset rs) = some (0b110111#6 ++ rs ++ rd ++ offset) ∧
  (AccessOk (addressOf s rs offset) 8 s → CanAdvance s → ∃ b, Holds s (addressOf s rs offset) 8 b ∧
    Completes (.ld rd offset rs) s (GprResult rd (dwordOf s.params.endian b) s)) ∧
  LoadStops (addressOf s rs offset) 8 s (exec (.ld rd offset rs) s)

/-- L.S and L.D: the bytes read, the zero upper half of L.S, what stops them, words and frame. The words are those of R100,
which the spec supplies from general knowledge (log 19). The premise that pc does not wrap is the reading of U9 in log 12. -/
def Obligations.FloatingPointLoads : Prop :=
  ∀ (fd : FReg) (rs : Reg) (offset : Imm) (s : State),
  encode (.lS fd offset rs) = some (0b110001#6 ++ rs ++ fd ++ offset) ∧
  (AccessOk (addressOf s rs offset) 4 s → CanAdvance s → ∃ b, Holds s (addressOf s rs offset) 4 b ∧
    Completes (.lS fd offset rs) s (FprResult fd ((wordOf s.params.endian b).setWidth 64) s)) ∧
  LoadStops (addressOf s rs offset) 4 s (exec (.lS fd offset rs) s) ∧
  encode (.lD fd offset rs) = some (0b110101#6 ++ rs ++ fd ++ offset) ∧
  (AccessOk (addressOf s rs offset) 8 s → CanAdvance s → ∃ b, Holds s (addressOf s rs offset) 8 b ∧
    Completes (.lD fd offset rs) s (FprResult fd (dwordOf s.params.endian b) s)) ∧
  LoadStops (addressOf s rs offset) 8 s (exec (.lD fd offset rs) s)

/-- SB, SH, SW, SD: the bytes written, every other byte kept, what stops them, words and frame. The words are those of R100,
which the spec supplies from general knowledge (log 19). The premise that pc does not wrap is the reading of U9 in log 12. -/
def Obligations.IntegerStores : Prop :=
  ∀ (rt rs : Reg) (offset : Imm) (s : State),
  encode (.sb rt offset rs) = some (0b101000#6 ++ rs ++ rt ++ offset) ∧
  (AccessOk (addressOf s rs offset) 1 s → OutsideText (addressOf s rs offset) 1 s → CanAdvance s →
    Completes (.sb rt offset rs) s (StoreResult (addressOf s rs offset) 1 (readGpr s rt) s)) ∧
  StoreStops (addressOf s rs offset) 1 s (exec (.sb rt offset rs) s) ∧
  encode (.sh rt offset rs) = some (0b101001#6 ++ rs ++ rt ++ offset) ∧
  (AccessOk (addressOf s rs offset) 2 s → OutsideText (addressOf s rs offset) 2 s → CanAdvance s →
    Completes (.sh rt offset rs) s (StoreResult (addressOf s rs offset) 2 (readGpr s rt) s)) ∧
  StoreStops (addressOf s rs offset) 2 s (exec (.sh rt offset rs) s) ∧
  encode (.sw rt offset rs) = some (0b101011#6 ++ rs ++ rt ++ offset) ∧
  (AccessOk (addressOf s rs offset) 4 s → OutsideText (addressOf s rs offset) 4 s → CanAdvance s →
    Completes (.sw rt offset rs) s (StoreResult (addressOf s rs offset) 4 (readGpr s rt) s)) ∧
  StoreStops (addressOf s rs offset) 4 s (exec (.sw rt offset rs) s) ∧
  encode (.sd rt offset rs) = some (0b111111#6 ++ rs ++ rt ++ offset) ∧
  (AccessOk (addressOf s rs offset) 8 s → OutsideText (addressOf s rs offset) 8 s → CanAdvance s →
    Completes (.sd rt offset rs) s (StoreResult (addressOf s rs offset) 8 (readGpr s rt) s)) ∧
  StoreStops (addressOf s rs offset) 8 s (exec (.sd rt offset rs) s)

/-- S.S and S.D: the bytes written, every other byte kept, what stops them, words and frame. The words are those of R100,
which the spec supplies from general knowledge (log 19). The premise that pc does not wrap is the reading of U9 in log 12. -/
def Obligations.FloatingPointStores : Prop :=
  ∀ (ft : FReg) (rs : Reg) (offset : Imm) (s : State),
  encode (.sS ft offset rs) = some (0b111001#6 ++ rs ++ ft ++ offset) ∧
  (AccessOk (addressOf s rs offset) 4 s → OutsideText (addressOf s rs offset) 4 s → CanAdvance s →
    Completes (.sS ft offset rs) s (StoreResult (addressOf s rs offset) 4 (readFpr s ft) s)) ∧
  StoreStops (addressOf s rs offset) 4 s (exec (.sS ft offset rs) s) ∧
  encode (.sD ft offset rs) = some (0b111101#6 ++ rs ++ ft ++ offset) ∧
  (AccessOk (addressOf s rs offset) 8 s → OutsideText (addressOf s rs offset) 8 s → CanAdvance s →
    Completes (.sD ft offset rs) s (StoreResult (addressOf s rs offset) 8 (readFpr s ft) s)) ∧
  StoreStops (addressOf s rs offset) 8 s (exec (.sD ft offset rs) s)

/-- After SD, each byte and each word of the double-word reads back where the byte order puts it. The premise that pc does
not wrap is the reading of U9 in log 12. -/
def Obligations.DoubleWordReadBackInParts : Prop :=
  ∀ (rt rs rd rb : Reg) (offset o : Imm) (s t : State),
  exec (.sd rt offset rs) s = .next t → AccessOk (addressOf s rs offset) 8 s →
  mode t ≠ none → (mode t = some .user → ∀ i < 8, userAccessible t (addressOf s rs offset + BitVec.ofNat 64 i) = true) →
  CanAdvance t →
  (∀ i < 8, addressOf t rb o = addressOf s rs offset + BitVec.ofNat 64 i →
    Completes (.lbu rd o rb) t (GprResult rd (match s.params.endian with
      | .big => ((readGpr s rt).extractLsb' (56 - 8 * i) 8).setWidth 64
      | .little => ((readGpr s rt).extractLsb' (8 * i) 8).setWidth 64) t)) ∧
  (addressOf t rb o = addressOf s rs offset →
    Completes (.lwu rd o rb) t (GprResult rd (match s.params.endian with
      | .big => ((readGpr s rt).extractLsb' 32 32).setWidth 64
      | .little => ((readGpr s rt).extractLsb' 0 32).setWidth 64) t) ∧
    Completes (.ld rd o rb) t (GprResult rd (readGpr s rt) t)) ∧
  (addressOf t rb o = addressOf s rs offset + 4 →
    Completes (.lwu rd o rb) t (GprResult rd (match s.params.endian with
      | .big => ((readGpr s rt).extractLsb' 0 32).setWidth 64
      | .little => ((readGpr s rt).extractLsb' 32 32).setWidth 64) t))

/-- J, JR, JAL, JALR: targets, link value, refusals, words and frame. The words are those of R100, which the spec supplies
from general knowledge (log 19). The premise that pc does not wrap is the reading of U9 in log 12. -/
def Obligations.JumpsAndLinks : Prop :=
  ∀ (index : JField) (rs : Reg) (s : State),
  encode (.j index) = some (0b000010#6 ++ index) ∧
  (CanTransfer s → ¬s.pc.extractLsb' 0 28 = 0xFFFFFFC →
    Completes (.j index) s (fun t => KeepsAllBut [] s t ∧ Transfers (s.pc.extractLsb' 28 36 ++ index ++ 0b00#2) s t)) ∧
  (s.delay = none → s.pc.extractLsb' 0 28 = 0xFFFFFFC →
    exec (.j index) s = .refused .jumpAtRegionEnd ∧ exec (.jal index) s = .refused .jumpAtRegionEnd) ∧
  encode (.jal index) = some (0b000011#6 ++ index) ∧
  (CanTransfer s → ¬s.pc.extractLsb' 0 28 = 0xFFFFFFC →
    Completes (.jal index) s
        (fun t => (∀ r, readGpr t r = if r = 31 then (if s.params.delaySlot = true then s.pc + 8 else s.pc + 4) else readGpr s r) ∧
      KeepsAllBut [.gprs] s t ∧ Transfers (s.pc.extractLsb' 28 36 ++ index ++ 0b00#2) s t)) ∧
  encode (.jr rs) = some (0b000000#6 ++ rs ++ 0b000000000000000001000#21) ∧
  (CanTransfer s → Completes (.jr rs) s (fun t => KeepsAllBut [] s t ∧ Transfers (readGpr s rs) s t)) ∧
  encode (.jalr rs) = some (0b000000#6 ++ rs ++ 0b000001111100000001001#21) ∧
  (CanTransfer s → rs ≠ 31 →
    Completes (.jalr rs) s
        (fun t => (∀ r, readGpr t r = if r = 31 then (if s.params.delaySlot = true then s.pc + 8 else s.pc + 4) else readGpr s r) ∧
      KeepsAllBut [.gprs] s t ∧ Transfers (readGpr s rs) s t)) ∧
  (s.delay = none → rs = 31 → exec (.jalr rs) s = .refused .jalrRsEqualsLink)

/-- BLEZ, BLTZ, BGEZ, BGTZ, BEQ, BNE: conditions, target, words and frame. At offset 0 too the target is that of the formula
(log 29). The words are those of R100, which the spec supplies from general knowledge (log 19). The premise that pc does not
wrap is the reading of U9 in log 12. -/
def Obligations.IntegerBranches : Prop :=
  ∀ (rs rt : Reg) (offset : Imm) (s : State),
  encode (.blez rs offset) = some (0b000110#6 ++ rs ++ 0b00000#5 ++ offset) ∧
  (BranchRoom ((readGpr s rs).toInt ≤ 0) offset s → Completes (.blez rs offset) s (fun t => KeepsAllBut [] s t ∧
    (((readGpr s rs).toInt ≤ 0) → Transfers (s.pc + 4 + (offset ++ 0b00#2).signExtend 64) s t) ∧
        (¬((readGpr s rs).toInt ≤ 0) → FallsThrough s t))) ∧
  encode (.bltz rs offset) = some (0b000001#6 ++ rs ++ 0b00000#5 ++ offset) ∧
  (BranchRoom ((readGpr s rs).toInt < 0) offset s → Completes (.bltz rs offset) s (fun t => KeepsAllBut [] s t ∧
    (((readGpr s rs).toInt < 0) → Transfers (s.pc + 4 + (offset ++ 0b00#2).signExtend 64) s t) ∧
        (¬((readGpr s rs).toInt < 0) → FallsThrough s t))) ∧
  encode (.bgez rs offset) = some (0b000001#6 ++ rs ++ 0b00001#5 ++ offset) ∧
  (BranchRoom (0 ≤ (readGpr s rs).toInt) offset s → Completes (.bgez rs offset) s (fun t => KeepsAllBut [] s t ∧
    ((0 ≤ (readGpr s rs).toInt) → Transfers (s.pc + 4 + (offset ++ 0b00#2).signExtend 64) s t) ∧
        (¬(0 ≤ (readGpr s rs).toInt) → FallsThrough s t))) ∧
  encode (.bgtz rs offset) = some (0b000111#6 ++ rs ++ 0b00000#5 ++ offset) ∧
  (BranchRoom (0 < (readGpr s rs).toInt) offset s → Completes (.bgtz rs offset) s (fun t => KeepsAllBut [] s t ∧
    ((0 < (readGpr s rs).toInt) → Transfers (s.pc + 4 + (offset ++ 0b00#2).signExtend 64) s t) ∧
        (¬(0 < (readGpr s rs).toInt) → FallsThrough s t))) ∧
  encode (.beq rs rt offset) = some (0b000100#6 ++ rs ++ rt ++ offset) ∧
  (BranchRoom (readGpr s rs = readGpr s rt) offset s → Completes (.beq rs rt offset) s (fun t => KeepsAllBut [] s t ∧
    ((readGpr s rs = readGpr s rt) → Transfers (s.pc + 4 + (offset ++ 0b00#2).signExtend 64) s t) ∧
        (¬(readGpr s rs = readGpr s rt) → FallsThrough s t))) ∧
  encode (.bne rs rt offset) = some (0b000101#6 ++ rs ++ rt ++ offset) ∧
  (BranchRoom (readGpr s rs ≠ readGpr s rt) offset s → Completes (.bne rs rt offset) s (fun t => KeepsAllBut [] s t ∧
    ((readGpr s rs ≠ readGpr s rt) → Transfers (s.pc + 4 + (offset ++ 0b00#2).signExtend 64) s t) ∧
        (¬(readGpr s rs ≠ readGpr s rt) → FallsThrough s t)))

/-- BC1T and BC1F: the condition code tested, target, words and frame. At offset 0 too the target is that of the formula (log
29). The words are those of R100, which the spec supplies from general knowledge (log 19). The premise that pc does not wrap
is the reading of U9 in log 12. -/
def Obligations.FloatingPointBranches : Prop :=
  ∀ (cc : Cc) (offset : Imm) (s : State),
  encode (.bc1t cc offset) = some (0b01000101000#11 ++ cc ++ 0b01#2 ++ offset) ∧
  (BranchRoom (readFcc s cc = true) offset s → Completes (.bc1t cc offset) s (fun t => KeepsAllBut [] s t ∧
    ((readFcc s cc = true) → Transfers (s.pc + 4 + (offset ++ 0b00#2).signExtend 64) s t) ∧
        (¬(readFcc s cc = true) → FallsThrough s t))) ∧
  encode (.bc1f cc offset) = some (0b01000101000#11 ++ cc ++ 0b00#2 ++ offset) ∧
  (BranchRoom (readFcc s cc = false) offset s → Completes (.bc1f cc offset) s (fun t => KeepsAllBut [] s t ∧
    ((readFcc s cc = false) → Transfers (s.pc + 4 + (offset ++ 0b00#2).signExtend 64) s t) ∧
        (¬(readFcc s cc = false) → FallsThrough s t)))

/-- A jump, branch or ERET in a delay slot is refused before anything else, and no other instruction is refused so. -/
def Obligations.NoControlTransferInDelaySlot : Prop :=
  ∀ (i : Instr) (s : State),
  exec i s = .refused .controlTransferInDelaySlot ↔ controlTransfer i = true ∧ s.delay ≠ none

/-- Where pc and delay go after any instruction. At offset 0 too the target of a branch is that of the formula (log 29). -/
def Obligations.NextPcOfEveryInstruction : Prop :=
  ∀ (i : Instr) (s t : State), exec i s = .next t →
  (∃ e, TrapEntered e s t) ∨
  (i = .eret ∧ t.pc = s.epc ∧ s.delay = none ∧ t.delay = none) ∨
  (controlTransfer i = true ∧ s.delay = none ∧ ∃ target, jumpDestination i s = some target ∧ Transfers target s t) ∨
  (controlTransfer i = true ∧ s.delay = none ∧ ∃ taken offset, branchCase i s = some (taken, offset) ∧
    (taken = true → Transfers (takenTarget s offset) s t) ∧ (taken = false → FallsThrough s t)) ∨
  (controlTransfer i = false ∧ InOrder s t)

/-- An instruction is refused as a wrap of pc exactly where pc would wrap to 0 and no earlier stop of its own applies. Which
addresses count as a wrap is the reading of U9 in log 12, and that this refusal comes last is log 26. -/
def Obligations.WrapOfPcIsRefused : Prop :=
  (∀ (i : Instr) (s : State), exec i s = .refused .pcWraps ↔ ReachesAdvance i s ∧ WrapsPc i s) ∧
  ∀ (i : Instr) (s : State), exec i s = .refused .pcWraps →
    s.delay = none ∧ i ≠ .eret ∧ (∀ code, i ≠ .trap code) ∧ 2 ^ 64 - 2 ^ 17 ≤ s.pc.toNat

/-- With a delay slot, the instruction after a jump or a branch runs next and then control is at its destination; if it
raises, EPC is the jump or branch. At offset 0 too the target of a branch taken is that of the formula (log 29). -/
def Obligations.DelaySlotRunsBeforeTheTarget : Prop :=
  ∀ (i j : Instr) (s t u : State), s.params.delaySlot = true → exl s = false →
  controlTransfer i = true → i ≠ .eret → exec i s = .next t → exec j t = .next u →
  t.pc = s.pc + 4 ∧ u.delay = none ∧
  ((jumpDestination i s = some u.pc ∨
      (∃ offset, branchCase i s = some (true, offset) ∧ u.pc = takenTarget s offset) ∨
      ∃ offset, branchCase i s = some (false, offset) ∧ u.pc = s.pc + 8) ∨
    (u.epc = s.pc ∧ u.cause.bd = true ∧ u.pc = s.params.excVector))

/-- ADD, SUB, MUL, DIV in .D, .S and .PS: operands, lanes, words and frame. The words are those of R100, which the spec
supplies from general knowledge (log 19). The premise that pc does not wrap is the reading of U9 in log 12. -/
def Obligations.FloatingPointArithmetic : Prop :=
  ∀ (fd fs ft : FReg) (s : State),
  encode (.addD fd fs ft) = some (0b01000110001#11 ++ ft ++ fs ++ fd ++ 0b000000#6) ∧
  (CanAdvance s → Completes (.addD fd fs ft) s (FprResult fd (fpAddD s.params.fp (readFpr s fs) (readFpr s ft)) s)) ∧
  encode (.addS fd fs ft) = some (0b01000110000#11 ++ ft ++ fs ++ fd ++ 0b000000#6) ∧
  (CanAdvance s →
      Completes (.addS fd fs ft) s (FprLowResult fd (fpAddS s.params.fp ((readFpr s fs).extractLsb' 0 32) ((readFpr s ft).extractLsb' 0 32)) s)) ∧
  encode (.addPS fd fs ft) = some (0b01000110110#11 ++ ft ++ fs ++ fd ++ 0b000000#6) ∧
  (CanAdvance s →
      Completes (.addPS fd fs ft) s (FprResult fd (fpAddS s.params.fp ((readFpr s fs).extractLsb' 32 32) ((readFpr s ft).extractLsb' 32 32) ++
      fpAddS s.params.fp ((readFpr s fs).extractLsb' 0 32) ((readFpr s ft).extractLsb' 0 32)) s)) ∧
  encode (.subD fd fs ft) = some (0b01000110001#11 ++ ft ++ fs ++ fd ++ 0b000001#6) ∧
  (CanAdvance s → Completes (.subD fd fs ft) s (FprResult fd (fpSubD s.params.fp (readFpr s fs) (readFpr s ft)) s)) ∧
  encode (.subS fd fs ft) = some (0b01000110000#11 ++ ft ++ fs ++ fd ++ 0b000001#6) ∧
  (CanAdvance s →
      Completes (.subS fd fs ft) s (FprLowResult fd (fpSubS s.params.fp ((readFpr s fs).extractLsb' 0 32) ((readFpr s ft).extractLsb' 0 32)) s)) ∧
  encode (.subPS fd fs ft) = some (0b01000110110#11 ++ ft ++ fs ++ fd ++ 0b000001#6) ∧
  (CanAdvance s →
      Completes (.subPS fd fs ft) s (FprResult fd (fpSubS s.params.fp ((readFpr s fs).extractLsb' 32 32) ((readFpr s ft).extractLsb' 32 32) ++
      fpSubS s.params.fp ((readFpr s fs).extractLsb' 0 32) ((readFpr s ft).extractLsb' 0 32)) s)) ∧
  encode (.mulD fd fs ft) = some (0b01000110001#11 ++ ft ++ fs ++ fd ++ 0b000010#6) ∧
  (CanAdvance s → Completes (.mulD fd fs ft) s (FprResult fd (fpMulD s.params.fp (readFpr s fs) (readFpr s ft)) s)) ∧
  encode (.mulS fd fs ft) = some (0b01000110000#11 ++ ft ++ fs ++ fd ++ 0b000010#6) ∧
  (CanAdvance s →
      Completes (.mulS fd fs ft) s (FprLowResult fd (fpMulS s.params.fp ((readFpr s fs).extractLsb' 0 32) ((readFpr s ft).extractLsb' 0 32)) s)) ∧
  encode (.mulPS fd fs ft) = some (0b01000110110#11 ++ ft ++ fs ++ fd ++ 0b000010#6) ∧
  (CanAdvance s →
      Completes (.mulPS fd fs ft) s (FprResult fd (fpMulS s.params.fp ((readFpr s fs).extractLsb' 32 32) ((readFpr s ft).extractLsb' 32 32) ++
      fpMulS s.params.fp ((readFpr s fs).extractLsb' 0 32) ((readFpr s ft).extractLsb' 0 32)) s)) ∧
  encode (.divD fd fs ft) = some (0b01000110001#11 ++ ft ++ fs ++ fd ++ 0b000011#6) ∧
  (CanAdvance s → Completes (.divD fd fs ft) s (FprResult fd (fpDivD s.params.fp (readFpr s fs) (readFpr s ft)) s)) ∧
  encode (.divS fd fs ft) = some (0b01000110000#11 ++ ft ++ fs ++ fd ++ 0b000011#6) ∧
  (CanAdvance s →
      Completes (.divS fd fs ft) s (FprLowResult fd (fpDivS s.params.fp ((readFpr s fs).extractLsb' 0 32) ((readFpr s ft).extractLsb' 0 32)) s)) ∧
  encode (.divPS fd fs ft) = some (0b01000110110#11 ++ ft ++ fs ++ fd ++ 0b000011#6) ∧
  (CanAdvance s →
      Completes (.divPS fd fs ft) s (FprResult fd (fpDivS s.params.fp ((readFpr s fs).extractLsb' 32 32) ((readFpr s ft).extractLsb' 32 32) ++
      fpDivS s.params.fp ((readFpr s fs).extractLsb' 0 32) ((readFpr s ft).extractLsb' 0 32)) s))

/-- MADD.D, MADD.S, MADD.PS: fused or rounded twice by FP.fused, words and frame. The words are those of R100, which the spec
supplies from general knowledge (log 19). The premise that pc does not wrap is the reading of U9 in log 12. -/
def Obligations.FloatingPointMultiplyAdd : Prop :=
  ∀ (fd fr fs ft : FReg) (s : State),
  encode (.maddD fd fr fs ft) = some (0b010011#6 ++ fr ++ ft ++ fs ++ fd ++ 0b100001#6) ∧
  (CanAdvance s → s.params.fp.fused = true →
      Completes (.maddD fd fr fs ft) s (FprResult fd (fpFmaD s.params.fp (readFpr s fs) (readFpr s ft) (readFpr s fr)) s)) ∧
  (CanAdvance s → s.params.fp.fused = false →
      Completes (.maddD fd fr fs ft) s (FprResult fd (fpAddD s.params.fp (fpMulD s.params.fp (readFpr s fs) (readFpr s ft)) (readFpr s fr)) s)) ∧
  encode (.maddS fd fr fs ft) = some (0b010011#6 ++ fr ++ ft ++ fs ++ fd ++ 0b100000#6) ∧
  (CanAdvance s → s.params.fp.fused = true →
      Completes (.maddS fd fr fs ft) s (FprLowResult fd (fpFmaS s.params.fp ((readFpr s fs).extractLsb' 0 32) ((readFpr s ft).extractLsb' 0 32) ((readFpr s fr).extractLsb' 0 32)) s)) ∧
  (CanAdvance s → s.params.fp.fused = false →
      Completes (.maddS fd fr fs ft) s (FprLowResult fd (fpAddS s.params.fp (fpMulS s.params.fp ((readFpr s fs).extractLsb' 0 32) ((readFpr s ft).extractLsb' 0 32)) ((readFpr s fr).extractLsb' 0 32)) s)) ∧
  encode (.maddPS fd fr fs ft) = some (0b010011#6 ++ fr ++ ft ++ fs ++ fd ++ 0b100110#6) ∧
  (CanAdvance s → s.params.fp.fused = true →
      Completes (.maddPS fd fr fs ft) s (FprResult fd (fpFmaS s.params.fp ((readFpr s fs).extractLsb' 32 32) ((readFpr s ft).extractLsb' 32 32) ((readFpr s fr).extractLsb' 32 32) ++
      fpFmaS s.params.fp ((readFpr s fs).extractLsb' 0 32) ((readFpr s ft).extractLsb' 0 32) ((readFpr s fr).extractLsb' 0 32)) s)) ∧
  (CanAdvance s → s.params.fp.fused = false →
      Completes (.maddPS fd fr fs ft) s (FprResult fd (fpAddS s.params.fp (fpMulS s.params.fp ((readFpr s fs).extractLsb' 32 32) ((readFpr s ft).extractLsb' 32 32)) ((readFpr s fr).extractLsb' 32 32) ++
      fpAddS s.params.fp (fpMulS s.params.fp ((readFpr s fs).extractLsb' 0 32) ((readFpr s ft).extractLsb' 0 32)) ((readFpr s fr).extractLsb' 0 32)) s))

/-- The ten CVT.x.y: source and destination widths, words and frame. The words are those of R100, which the spec supplies
from general knowledge (log 19). The premise that pc does not wrap is the reading of U9 in log 12. -/
def Obligations.Conversions : Prop :=
  ∀ (fd fs : FReg) (s : State),
  encode (.cvtSD fd fs) = some (0b0100011000100000#16 ++ fs ++ fd ++ 0b100000#6) ∧
  (CanAdvance s → Completes (.cvtSD fd fs) s (FprLowResult fd (fpCvtSD s.params.fp (readFpr s fs)) s)) ∧
  encode (.cvtSW fd fs) = some (0b0100011010000000#16 ++ fs ++ fd ++ 0b100000#6) ∧
  (CanAdvance s →
      Completes (.cvtSW fd fs) s (FprLowResult fd (fpCvtSW s.params.fp ((readFpr s fs).extractLsb' 0 32)) s)) ∧
  encode (.cvtSL fd fs) = some (0b0100011010100000#16 ++ fs ++ fd ++ 0b100000#6) ∧
  (CanAdvance s → Completes (.cvtSL fd fs) s (FprLowResult fd (fpCvtSL s.params.fp (readFpr s fs)) s)) ∧
  encode (.cvtDS fd fs) = some (0b0100011000000000#16 ++ fs ++ fd ++ 0b100001#6) ∧
  (CanAdvance s → Completes (.cvtDS fd fs) s (FprResult fd (fpCvtDS s.params.fp ((readFpr s fs).extractLsb' 0 32)) s)) ∧
  encode (.cvtDW fd fs) = some (0b0100011010000000#16 ++ fs ++ fd ++ 0b100001#6) ∧
  (CanAdvance s → Completes (.cvtDW fd fs) s (FprResult fd (fpCvtDW s.params.fp ((readFpr s fs).extractLsb' 0 32)) s)) ∧
  encode (.cvtDL fd fs) = some (0b0100011010100000#16 ++ fs ++ fd ++ 0b100001#6) ∧
  (CanAdvance s → Completes (.cvtDL fd fs) s (FprResult fd (fpCvtDL s.params.fp (readFpr s fs)) s)) ∧
  encode (.cvtWS fd fs) = some (0b0100011000000000#16 ++ fs ++ fd ++ 0b100100#6) ∧
  (CanAdvance s →
      Completes (.cvtWS fd fs) s (FprLowResult fd (fpCvtWS s.params.fp ((readFpr s fs).extractLsb' 0 32)) s)) ∧
  encode (.cvtWD fd fs) = some (0b0100011000100000#16 ++ fs ++ fd ++ 0b100100#6) ∧
  (CanAdvance s → Completes (.cvtWD fd fs) s (FprLowResult fd (fpCvtWD s.params.fp (readFpr s fs)) s)) ∧
  encode (.cvtLS fd fs) = some (0b0100011000000000#16 ++ fs ++ fd ++ 0b100101#6) ∧
  (CanAdvance s → Completes (.cvtLS fd fs) s (FprResult fd (fpCvtLS s.params.fp ((readFpr s fs).extractLsb' 0 32)) s)) ∧
  encode (.cvtLD fd fs) = some (0b0100011000100000#16 ++ fs ++ fd ++ 0b100101#6) ∧
  (CanAdvance s → Completes (.cvtLD fd fs) s (FprResult fd (fpCvtLD s.params.fp (readFpr s fs)) s))

/-- The twelve compares: fcc[cc] is the relation on the numbers of the patterns, false when unordered but for NE; words and
frame. The words are those of R100, which the spec supplies from general knowledge (log 19). The premise that pc does not
wrap is the reading of U9 in log 12. -/
def Obligations.ComparesByTheExtendedNumbers : Prop :=
  ∀ (cc : Cc) (fs ft : FReg) (s : State),
  encode (.cLtS cc fs ft) = some (0b01000110000#11 ++ ft ++ fs ++ cc ++ 0b00111100#8) ∧
  (CanAdvance s → ∃ v, Completes (.cLtS cc fs ft) s (FccResult cc v s) ∧
    (v = true ↔ Ordered (fun x y => x < y) single ((readFpr s fs).extractLsb' 0 32).toNat
      ((readFpr s ft).extractLsb' 0 32).toNat)) ∧
  encode (.cLeS cc fs ft) = some (0b01000110000#11 ++ ft ++ fs ++ cc ++ 0b00111110#8) ∧
  (CanAdvance s → ∃ v, Completes (.cLeS cc fs ft) s (FccResult cc v s) ∧
    (v = true ↔ Ordered (fun x y => x ≤ y) single ((readFpr s fs).extractLsb' 0 32).toNat
      ((readFpr s ft).extractLsb' 0 32).toNat)) ∧
  encode (.cGtS cc fs ft) = some (0b01000110000#11 ++ fs ++ ft ++ cc ++ 0b00111100#8) ∧
  (CanAdvance s → ∃ v, Completes (.cGtS cc fs ft) s (FccResult cc v s) ∧
    (v = true ↔ Ordered (fun x y => x > y) single ((readFpr s fs).extractLsb' 0 32).toNat
      ((readFpr s ft).extractLsb' 0 32).toNat)) ∧
  encode (.cGeS cc fs ft) = some (0b01000110000#11 ++ fs ++ ft ++ cc ++ 0b00111110#8) ∧
  (CanAdvance s → ∃ v, Completes (.cGeS cc fs ft) s (FccResult cc v s) ∧
    (v = true ↔ Ordered (fun x y => x ≥ y) single ((readFpr s fs).extractLsb' 0 32).toNat
      ((readFpr s ft).extractLsb' 0 32).toNat)) ∧
  encode (.cEqS cc fs ft) = some (0b01000110000#11 ++ ft ++ fs ++ cc ++ 0b00110010#8) ∧
  (CanAdvance s → ∃ v, Completes (.cEqS cc fs ft) s (FccResult cc v s) ∧
    (v = true ↔ Ordered (fun x y => x = y) single ((readFpr s fs).extractLsb' 0 32).toNat
      ((readFpr s ft).extractLsb' 0 32).toNat)) ∧
  encode (.cNeS cc fs ft) = none ∧
  (CanAdvance s → ∃ v, Completes (.cNeS cc fs ft) s (FccResult cc v s) ∧
    (v = true ↔ ¬Ordered (fun x y => x = y) single ((readFpr s fs).extractLsb' 0 32).toNat
      ((readFpr s ft).extractLsb' 0 32).toNat)) ∧
  encode (.cLtD cc fs ft) = some (0b01000110001#11 ++ ft ++ fs ++ cc ++ 0b00111100#8) ∧
  (CanAdvance s → ∃ v, Completes (.cLtD cc fs ft) s (FccResult cc v s) ∧
    (v = true ↔ Ordered (fun x y => x < y) double (readFpr s fs).toNat
      (readFpr s ft).toNat)) ∧
  encode (.cLeD cc fs ft) = some (0b01000110001#11 ++ ft ++ fs ++ cc ++ 0b00111110#8) ∧
  (CanAdvance s → ∃ v, Completes (.cLeD cc fs ft) s (FccResult cc v s) ∧
    (v = true ↔ Ordered (fun x y => x ≤ y) double (readFpr s fs).toNat
      (readFpr s ft).toNat)) ∧
  encode (.cGtD cc fs ft) = some (0b01000110001#11 ++ fs ++ ft ++ cc ++ 0b00111100#8) ∧
  (CanAdvance s → ∃ v, Completes (.cGtD cc fs ft) s (FccResult cc v s) ∧
    (v = true ↔ Ordered (fun x y => x > y) double (readFpr s fs).toNat
      (readFpr s ft).toNat)) ∧
  encode (.cGeD cc fs ft) = some (0b01000110001#11 ++ fs ++ ft ++ cc ++ 0b00111110#8) ∧
  (CanAdvance s → ∃ v, Completes (.cGeD cc fs ft) s (FccResult cc v s) ∧
    (v = true ↔ Ordered (fun x y => x ≥ y) double (readFpr s fs).toNat
      (readFpr s ft).toNat)) ∧
  encode (.cEqD cc fs ft) = some (0b01000110001#11 ++ ft ++ fs ++ cc ++ 0b00110010#8) ∧
  (CanAdvance s → ∃ v, Completes (.cEqD cc fs ft) s (FccResult cc v s) ∧
    (v = true ↔ Ordered (fun x y => x = y) double (readFpr s fs).toNat
      (readFpr s ft).toNat)) ∧
  encode (.cNeD cc fs ft) = none ∧
  (CanAdvance s → ∃ v, Completes (.cNeD cc fs ft) s (FccResult cc v s) ∧
    (v = true ↔ ¬Ordered (fun x y => x = y) double (readFpr s fs).toNat
      (readFpr s ft).toNat))

/-- The functions of the default record round the exact result of finite operands once, and give an exact zero its sign. That
the default record is the IEEE 754 one in all four rounding modes, and the exact zero of a fused multiply-add, are the
reading of log 7 (DEDUCED). -/
def Obligations.RoundsOnceCorrectly : Prop :=
  ∀ fp : FpRecord, fp.functions = .ieee → fp.flush = false →
  (∀ (a b : BitVec 32) (x y : ℚ), finiteValue single a.toNat = some x → finiteValue single b.toNat = some y →
    (x + y ≠ 0 → CorrectlyRounded fp.rm single (x + y) (fpAddS fp a b).toNat) ∧
    (x + y = 0 → a.msb = b.msb → isZero single a.msb (fpAddS fp a b).toNat) ∧
    (x + y = 0 → a.msb ≠ b.msb → isZero single (fp.rm == .towardMinusInf) (fpAddS fp a b).toNat) ∧
    (x - y ≠ 0 → CorrectlyRounded fp.rm single (x - y) (fpSubS fp a b).toNat) ∧
    (x - y = 0 → a.msb ≠ b.msb → isZero single a.msb (fpSubS fp a b).toNat) ∧
    (x - y = 0 → a.msb = b.msb → isZero single (fp.rm == .towardMinusInf) (fpSubS fp a b).toNat) ∧
    (x * y ≠ 0 → CorrectlyRounded fp.rm single (x * y) (fpMulS fp a b).toNat) ∧
    (x * y = 0 → isZero single (a.msb != b.msb) (fpMulS fp a b).toNat) ∧
    (x ≠ 0 → y ≠ 0 → CorrectlyRounded fp.rm single (x / y) (fpDivS fp a b).toNat) ∧
    (x = 0 → y ≠ 0 → isZero single (a.msb != b.msb) (fpDivS fp a b).toNat) ∧
    ∀ (c : BitVec 32) (z : ℚ), finiteValue single c.toNat = some z →
      (x * y + z ≠ 0 → CorrectlyRounded fp.rm single (x * y + z) (fpFmaS fp a b c).toNat) ∧
      (x * y + z = 0 → (a.msb != b.msb) = c.msb → isZero single c.msb (fpFmaS fp a b c).toNat) ∧
      (x * y + z = 0 → (a.msb != b.msb) ≠ c.msb → isZero single (fp.rm == .towardMinusInf) (fpFmaS fp a b c).toNat)) ∧
  (∀ (a b : Word) (x y : ℚ), finiteValue double a.toNat = some x → finiteValue double b.toNat = some y →
    (x + y ≠ 0 → CorrectlyRounded fp.rm double (x + y) (fpAddD fp a b).toNat) ∧
    (x + y = 0 → a.msb = b.msb → isZero double a.msb (fpAddD fp a b).toNat) ∧
    (x + y = 0 → a.msb ≠ b.msb → isZero double (fp.rm == .towardMinusInf) (fpAddD fp a b).toNat) ∧
    (x - y ≠ 0 → CorrectlyRounded fp.rm double (x - y) (fpSubD fp a b).toNat) ∧
    (x - y = 0 → a.msb ≠ b.msb → isZero double a.msb (fpSubD fp a b).toNat) ∧
    (x - y = 0 → a.msb = b.msb → isZero double (fp.rm == .towardMinusInf) (fpSubD fp a b).toNat) ∧
    (x * y ≠ 0 → CorrectlyRounded fp.rm double (x * y) (fpMulD fp a b).toNat) ∧
    (x * y = 0 → isZero double (a.msb != b.msb) (fpMulD fp a b).toNat) ∧
    (x ≠ 0 → y ≠ 0 → CorrectlyRounded fp.rm double (x / y) (fpDivD fp a b).toNat) ∧
    (x = 0 → y ≠ 0 → isZero double (a.msb != b.msb) (fpDivD fp a b).toNat) ∧
    ∀ (c : Word) (z : ℚ), finiteValue double c.toNat = some z →
      (x * y + z ≠ 0 → CorrectlyRounded fp.rm double (x * y + z) (fpFmaD fp a b c).toNat) ∧
      (x * y + z = 0 → (a.msb != b.msb) = c.msb → isZero double c.msb (fpFmaD fp a b c).toNat) ∧
      (x * y + z = 0 → (a.msb != b.msb) ≠ c.msb → isZero double (fp.rm == .towardMinusInf) (fpFmaD fp a b c).toNat)) ∧
  (∀ (a : Word) (x : ℚ), finiteValue double a.toNat = some x →
    (x ≠ 0 → CorrectlyRounded fp.rm single x (fpCvtSD fp a).toNat) ∧ (x = 0 →
        isZero single a.msb (fpCvtSD fp a).toNat)) ∧
  (∀ (a : BitVec 32) (x : ℚ), finiteValue single a.toNat = some x →
    (x ≠ 0 → CorrectlyRounded fp.rm double x (fpCvtDS fp a).toNat) ∧ (x = 0 →
        isZero double a.msb (fpCvtDS fp a).toNat)) ∧
  (∀ a : BitVec 32, a ≠ 0 → CorrectlyRounded fp.rm single a.toInt (fpCvtSW fp a).toNat ∧
    CorrectlyRounded fp.rm double a.toInt (fpCvtDW fp a).toNat) ∧
  (∀ a : Word, a ≠ 0 → CorrectlyRounded fp.rm single a.toInt (fpCvtSL fp a).toNat ∧
    CorrectlyRounded fp.rm double a.toInt (fpCvtDL fp a).toNat) ∧
  fpCvtSW fp 0 = 0 ∧ fpCvtSL fp 0 = 0 ∧ fpCvtDW fp 0 = 0 ∧ fpCvtDL fp 0 = 0

/-- NaN, infinite and zero operands of the functions of the default record, and conversions to integers in range. That the
default record is the IEEE 754 one is the reading of log 7 (DEDUCED), and what flush does to operands is log 8. -/
def Obligations.SpecialOperands : Prop :=
  ∀ fp : FpRecord, fp.functions = .ieee →
  (∀ a b : BitVec 32, isNan single a.toNat ∨ isNan single b.toNat →
    isNan single (fpAddS fp a b).toNat ∧ isNan single (fpSubS fp a b).toNat ∧ isNan single (fpMulS fp a b).toNat ∧
        isNan single (fpDivS fp a b).toNat) ∧
  (∀ a b c : BitVec 32, isNan single a.toNat ∨ isNan single b.toNat ∨ isNan single c.toNat →
      isNan single (fpFmaS fp a b c).toNat) ∧
  (∀ (a b : BitVec 32) (p q : Bool), isInf single p a.toNat → isInf single q b.toNat →
    (p ≠ q → isNan single (fpAddS fp a b).toNat ∧ isInf single p (fpSubS fp a b).toNat) ∧
    (p = q → isInf single p (fpAddS fp a b).toNat ∧ isNan single (fpSubS fp a b).toNat) ∧
    isInf single (p != q) (fpMulS fp a b).toNat ∧ isNan single (fpDivS fp a b).toNat) ∧
  (∀ (a b : BitVec 32) (p : Bool) (y : ℚ), isInf single p a.toNat → finiteValue single b.toNat = some y →
    isInf single p (fpAddS fp a b).toNat ∧ isInf single p (fpAddS fp b a).toNat ∧
    isInf single p (fpSubS fp a b).toNat ∧ isInf single (!p) (fpSubS fp b a).toNat ∧
    isInf single (p != b.msb) (fpDivS fp a b).toNat ∧ isZero single (p != b.msb) (fpDivS fp b a).toNat) ∧
  (∀ (a b : BitVec 32) (p : Bool) (y : ℚ), isInf single p a.toNat →
      finiteValue single (seen32 fp b).toNat = some y → y ≠ 0 →
    isInf single (p != b.msb) (fpMulS fp a b).toNat ∧ isInf single (p != b.msb) (fpMulS fp b a).toNat) ∧
  (∀ (a b : BitVec 32) (p q : Bool), isZero single p (seen32 fp a).toNat → isInf single q b.toNat →
    isNan single (fpMulS fp a b).toNat ∧ isNan single (fpMulS fp b a).toNat ∧
    ∀ c, isNan single (fpFmaS fp a b c).toNat ∧ isNan single (fpFmaS fp b a c).toNat) ∧
  (∀ (a b c : BitVec 32) (p : Bool), isInf single p a.toNat →
    ((∃ q, isInf single q b.toNat) ∨ ∃ y, finiteValue single (seen32 fp b).toNat = some y ∧ y ≠ 0) →
    ((∃ z, finiteValue single c.toNat = some z) ∨ isInf single (p != b.msb) c.toNat →
      isInf single (p != b.msb) (fpFmaS fp a b c).toNat ∧ isInf single (p != b.msb) (fpFmaS fp b a c).toNat) ∧
    (isInf single (!(p != b.msb)) c.toNat → isNan single (fpFmaS fp a b c).toNat ∧
        isNan single (fpFmaS fp b a c).toNat)) ∧
  (∀ (a b c : BitVec 32) (x y : ℚ) (p : Bool), finiteValue single a.toNat = some x →
      finiteValue single b.toNat = some y →
    isInf single p c.toNat → isInf single p (fpFmaS fp a b c).toNat) ∧
  (∀ (a b : BitVec 32) (p q : Bool), isZero single q (seen32 fp b).toNat →
    (isZero single p (seen32 fp a).toNat → isNan single (fpDivS fp a b).toNat) ∧
    (∀ m e, m ≠ 0 → unpack single (seen32 fp a).toNat = .fin p m e → isInf single (p != q) (fpDivS fp a b).toNat)) ∧
  (∀ a b : Word, isNan double a.toNat ∨ isNan double b.toNat →
    isNan double (fpAddD fp a b).toNat ∧ isNan double (fpSubD fp a b).toNat ∧ isNan double (fpMulD fp a b).toNat ∧
        isNan double (fpDivD fp a b).toNat) ∧
  (∀ a b c : Word, isNan double a.toNat ∨ isNan double b.toNat ∨ isNan double c.toNat →
      isNan double (fpFmaD fp a b c).toNat) ∧
  (∀ (a b : Word) (p q : Bool), isInf double p a.toNat → isInf double q b.toNat →
    (p ≠ q → isNan double (fpAddD fp a b).toNat ∧ isInf double p (fpSubD fp a b).toNat) ∧
    (p = q → isInf double p (fpAddD fp a b).toNat ∧ isNan double (fpSubD fp a b).toNat) ∧
    isInf double (p != q) (fpMulD fp a b).toNat ∧ isNan double (fpDivD fp a b).toNat) ∧
  (∀ (a b : Word) (p : Bool) (y : ℚ), isInf double p a.toNat → finiteValue double b.toNat = some y →
    isInf double p (fpAddD fp a b).toNat ∧ isInf double p (fpAddD fp b a).toNat ∧
    isInf double p (fpSubD fp a b).toNat ∧ isInf double (!p) (fpSubD fp b a).toNat ∧
    isInf double (p != b.msb) (fpDivD fp a b).toNat ∧ isZero double (p != b.msb) (fpDivD fp b a).toNat) ∧
  (∀ (a b : Word) (p : Bool) (y : ℚ), isInf double p a.toNat → finiteValue double (seen64 fp b).toNat = some y → y ≠ 0 →
    isInf double (p != b.msb) (fpMulD fp a b).toNat ∧ isInf double (p != b.msb) (fpMulD fp b a).toNat) ∧
  (∀ (a b : Word) (p q : Bool), isZero double p (seen64 fp a).toNat → isInf double q b.toNat →
    isNan double (fpMulD fp a b).toNat ∧ isNan double (fpMulD fp b a).toNat ∧
    ∀ c, isNan double (fpFmaD fp a b c).toNat ∧ isNan double (fpFmaD fp b a c).toNat) ∧
  (∀ (a b c : Word) (p : Bool), isInf double p a.toNat →
    ((∃ q, isInf double q b.toNat) ∨ ∃ y, finiteValue double (seen64 fp b).toNat = some y ∧ y ≠ 0) →
    ((∃ z, finiteValue double c.toNat = some z) ∨ isInf double (p != b.msb) c.toNat →
      isInf double (p != b.msb) (fpFmaD fp a b c).toNat ∧ isInf double (p != b.msb) (fpFmaD fp b a c).toNat) ∧
    (isInf double (!(p != b.msb)) c.toNat → isNan double (fpFmaD fp a b c).toNat ∧
        isNan double (fpFmaD fp b a c).toNat)) ∧
  (∀ (a b c : Word) (x y : ℚ) (p : Bool), finiteValue double a.toNat = some x → finiteValue double b.toNat = some y →
    isInf double p c.toNat → isInf double p (fpFmaD fp a b c).toNat) ∧
  (∀ (a b : Word) (p q : Bool), isZero double q (seen64 fp b).toNat →
    (isZero double p (seen64 fp a).toNat → isNan double (fpDivD fp a b).toNat) ∧
    (∀ m e, m ≠ 0 → unpack double (seen64 fp a).toNat = .fin p m e → isInf double (p != q) (fpDivD fp a b).toNat)) ∧
  (∀ a : Word, isNan double a.toNat → isNan single (fpCvtSD fp a).toNat) ∧
  (∀ a : BitVec 32, isNan single a.toNat → isNan double (fpCvtDS fp a).toNat) ∧
  (∀ (a : Word) (p : Bool), (isZero double p a.toNat → isZero single p (fpCvtSD fp a).toNat) ∧
    (isInf double p a.toNat → isInf single p (fpCvtSD fp a).toNat)) ∧
  (∀ (a : BitVec 32) (p : Bool), (isZero single p a.toNat → isZero double p (fpCvtDS fp a).toNat) ∧
    (isInf single p a.toNat → isInf double p (fpCvtDS fp a).toNat)) ∧
  (∀ (a : BitVec 32) (neg : Bool) (m : Nat) (e z : Int), unpack single (seen32 fp a).toNat = .fin neg m e →
    RoundsToInt fp.rm (ratOf neg m e) z → -(2 ^ 31) ≤ z → z < 2 ^ 31 → (fpCvtWS fp a).toInt = z) ∧
  (∀ (a : Word) (neg : Bool) (m : Nat) (e z : Int), unpack double (seen64 fp a).toNat = .fin neg m e →
    RoundsToInt fp.rm (ratOf neg m e) z → -(2 ^ 31) ≤ z → z < 2 ^ 31 → (fpCvtWD fp a).toInt = z) ∧
  (∀ (a : BitVec 32) (neg : Bool) (m : Nat) (e z : Int), unpack single (seen32 fp a).toNat = .fin neg m e →
    RoundsToInt fp.rm (ratOf neg m e) z → -(2 ^ 63) ≤ z → z < 2 ^ 63 → (fpCvtLS fp a).toInt = z) ∧
  (∀ (a : Word) (neg : Bool) (m : Nat) (e z : Int), unpack double (seen64 fp a).toNat = .fin neg m e →
    RoundsToInt fp.rm (ratOf neg m e) z → -(2 ^ 63) ≤ z → z < 2 ^ 63 → (fpCvtLD fp a).toInt = z)

/-- With flush, a result of the default record is the unflushed one with a denormal replaced by the zero of its sign. That a
denormal is recognised after rounding is the reading of log 7 (DEDUCED), and what flush does to operands is log 8. -/
def Obligations.FlushReplacesDenormals : Prop :=
  ∀ fp kept : FpRecord, fp.functions = .ieee → fp.flush = true → kept = { fp with flush := false } →
  (∀ a b : BitVec 32,
    IsFlushed32 (fpAddS fp a b) (fpAddS kept (seen32 fp a) (seen32 fp b)) ∧
    IsFlushed32 (fpSubS fp a b) (fpSubS kept (seen32 fp a) (seen32 fp b)) ∧
    IsFlushed32 (fpMulS fp a b) (fpMulS kept (seen32 fp a) (seen32 fp b)) ∧
    IsFlushed32 (fpDivS fp a b) (fpDivS kept (seen32 fp a) (seen32 fp b)) ∧
    ∀ c, IsFlushed32 (fpFmaS fp a b c) (fpFmaS kept (seen32 fp a) (seen32 fp b) (seen32 fp c))) ∧
  (∀ a b : Word,
    IsFlushed64 (fpAddD fp a b) (fpAddD kept (seen64 fp a) (seen64 fp b)) ∧
    IsFlushed64 (fpSubD fp a b) (fpSubD kept (seen64 fp a) (seen64 fp b)) ∧
    IsFlushed64 (fpMulD fp a b) (fpMulD kept (seen64 fp a) (seen64 fp b)) ∧
    IsFlushed64 (fpDivD fp a b) (fpDivD kept (seen64 fp a) (seen64 fp b)) ∧
    ∀ c, IsFlushed64 (fpFmaD fp a b c) (fpFmaD kept (seen64 fp a) (seen64 fp b) (seen64 fp c))) ∧
  (∀ a : Word, IsFlushed32 (fpCvtSD fp a) (fpCvtSD kept (seen64 fp a))) ∧
  (∀ a : BitVec 32, IsFlushed64 (fpCvtDS fp a) (fpCvtDS kept (seen32 fp a))) ∧
  (∀ a : BitVec 32, fpCvtSW fp a = fpCvtSW kept a ∧ fpCvtDW fp a = fpCvtDW kept a) ∧
  (∀ a : Word, fpCvtSL fp a = fpCvtSL kept a ∧ fpCvtDL fp a = fpCvtDL kept a)
end

