-- ==== Sys2Proof/Laws/Bytes.lean ====
section
/-! SUPPORT. The value of the bytes of an access as a concatenation (spec/20_memory.md R63). -/

namespace Sys2Proof.Machine

/-- One more byte on the right. -/
theorem setWidth_append_byte {n : Nat} (x : BitVec n) (b : Byte) :
    (x ++ b).setWidth 64 = (x.setWidth 64 <<< 8) ||| b.setWidth 64 := by
  apply BitVec.eq_of_getLsbD_eq
  intro i hi
  simp only [BitVec.getLsbD_or, BitVec.getLsbD_shiftLeft, BitVec.getLsbD_setWidth, BitVec.getLsbD_append, hi, decide_true,
    Bool.true_and]
  by_cases h : i < 8
  · simp [h]
  · rw [if_neg h, BitVec.getLsbD_of_ge b i (by omega)]
    simp [h, show i - 8 < 64 by omega]

theorem joinBytes_one (a : Byte) : joinBytes [a] = a.setWidth 64 := by
  simp [joinBytes]

theorem joinBytes_two (a b : Byte) : joinBytes [a, b] = (a ++ b).setWidth 64 := by
  simp [joinBytes, setWidth_append_byte]

theorem joinBytes_four (a b c d : Byte) : joinBytes [a, b, c, d] = (a ++ b ++ c ++ d).setWidth 64 := by
  simp [joinBytes, setWidth_append_byte]

theorem joinBytes_eight (a b c d e f g h : Byte) :
    joinBytes [a, b, c, d, e, f, g, h] = a ++ b ++ c ++ d ++ e ++ f ++ g ++ h := by
  have := setWidth_append_byte (a ++ b ++ c ++ d ++ e ++ f ++ g) h
  rw [BitVec.setWidth_eq] at this
  rw [this]
  simp [joinBytes, setWidth_append_byte]

end Sys2Proof.Machine
end

