-- ==== Sys2Proof/Laws/Encoding.lean ====
section
/-! SUPPORT. The formats of spec/30_encoding.md Table 30-1, field by field: a word under a mask, the fields read back, and the bytes of
a word read back. -/

namespace Sys2Proof

-- A word under a mask, format by format

theorem rWord_and (op op' : BitVec 6) (rs rs' : BitVec 5) (rt rt' : BitVec 5) (rd rd' : BitVec 5) (sa sa' : BitVec 5) (fn fn' : BitVec 6) :
    rWord op rs rt rd sa fn &&& rWord op' rs' rt' rd' sa' fn'
      = rWord (op &&& op') (rs &&& rs') (rt &&& rt') (rd &&& rd') (sa &&& sa') (fn &&& fn') := by
  unfold rWord
  refine BitVec.and_append.trans (congrArg (· ++ _) ?_)
  refine BitVec.and_append.trans (congrArg (· ++ _) ?_)
  refine BitVec.and_append.trans (congrArg (· ++ _) ?_)
  refine BitVec.and_append.trans (congrArg (· ++ _) ?_)
  exact BitVec.and_append

theorem iWord_and (op op' : BitVec 6) (rs rs' : BitVec 5) (rt rt' : BitVec 5) (imm imm' : BitVec 16) :
    iWord op rs rt imm &&& iWord op' rs' rt' imm'
      = iWord (op &&& op') (rs &&& rs') (rt &&& rt') (imm &&& imm') := by
  unfold iWord
  refine BitVec.and_append.trans (congrArg (· ++ _) ?_)
  refine BitVec.and_append.trans (congrArg (· ++ _) ?_)
  exact BitVec.and_append

theorem jWord_and (op op' : BitVec 6) (index index' : BitVec 26) :
    jWord op index &&& jWord op' index'
      = jWord (op &&& op') (index &&& index') := by
  unfold jWord
  exact BitVec.and_append

/-- A compare word is the six fields of the R format (R91). -/
theorem compareWord_eq (fmt ft fs : BitVec 5) (cc : Cc) (cond : BitVec 4) :
    compareWord fmt ft fs cc cond = rWord 0b010001#6 fmt ft fs (cc ++ 0b00#2) (0b11#2 ++ cond) := by
  apply BitVec.eq_of_getLsbD_eq
  intro i hi
  simp only [compareWord, rWord, BitVec.getLsbD_append]
  interval_cases i <;> simp

/-- An FP-branch word is the four fields of the I format. -/
theorem fpBranchWord_eq (cc : Cc) (tf : BitVec 1) (offset : Imm) :
    fpBranchWord cc tf offset = iWord 0b010001#6 0b01000#5 (cc ++ 0b0#1 ++ tf) offset := by
  apply BitVec.eq_of_getLsbD_eq
  intro i hi
  simp only [fpBranchWord, iWord, BitVec.getLsbD_append]
  interval_cases i <;> simp

/-- A TRAP word under the mask of its row (R111). -/
theorem trapWord_and (code : TrapCode) : trapWord code &&& 0xFC00003F#32 = 0x0000000C#32 := by
  apply BitVec.eq_of_getLsbD_eq
  intro i hi
  simp only [trapWord, BitVec.getLsbD_and, BitVec.getLsbD_append]
  interval_cases i <;> simp

-- The fields read back

@[simp] theorem fieldRs_rWord (op : BitVec 6) (rs : BitVec 5) (rt : BitVec 5) (rd : BitVec 5) (sa : BitVec 5) (fn : BitVec 6) :
    fieldRs (rWord op rs rt rd sa fn) = rs := by
  apply BitVec.eq_of_getLsbD_eq
  intro i hi
  simp only [fieldRs, rWord, BitVec.getLsbD_extractLsb', BitVec.getLsbD_append]
  interval_cases i <;> simp

@[simp] theorem fieldRt_rWord (op : BitVec 6) (rs : BitVec 5) (rt : BitVec 5) (rd : BitVec 5) (sa : BitVec 5) (fn : BitVec 6) :
    fieldRt (rWord op rs rt rd sa fn) = rt := by
  apply BitVec.eq_of_getLsbD_eq
  intro i hi
  simp only [fieldRt, rWord, BitVec.getLsbD_extractLsb', BitVec.getLsbD_append]
  interval_cases i <;> simp

@[simp] theorem fieldRd_rWord (op : BitVec 6) (rs : BitVec 5) (rt : BitVec 5) (rd : BitVec 5) (sa : BitVec 5) (fn : BitVec 6) :
    fieldRd (rWord op rs rt rd sa fn) = rd := by
  apply BitVec.eq_of_getLsbD_eq
  intro i hi
  simp only [fieldRd, rWord, BitVec.getLsbD_extractLsb', BitVec.getLsbD_append]
  interval_cases i <;> simp

@[simp] theorem fieldSa_rWord (op : BitVec 6) (rs : BitVec 5) (rt : BitVec 5) (rd : BitVec 5) (sa : BitVec 5) (fn : BitVec 6) :
    fieldSa (rWord op rs rt rd sa fn) = sa := by
  apply BitVec.eq_of_getLsbD_eq
  intro i hi
  simp only [fieldSa, rWord, BitVec.getLsbD_extractLsb', BitVec.getLsbD_append]
  interval_cases i <;> simp

@[simp] theorem fieldRs_iWord (op : BitVec 6) (rs : BitVec 5) (rt : BitVec 5) (imm : BitVec 16) :
    fieldRs (iWord op rs rt imm) = rs := by
  apply BitVec.eq_of_getLsbD_eq
  intro i hi
  simp only [fieldRs, iWord, BitVec.getLsbD_extractLsb', BitVec.getLsbD_append]
  interval_cases i <;> simp

@[simp] theorem fieldRt_iWord (op : BitVec 6) (rs : BitVec 5) (rt : BitVec 5) (imm : BitVec 16) :
    fieldRt (iWord op rs rt imm) = rt := by
  apply BitVec.eq_of_getLsbD_eq
  intro i hi
  simp only [fieldRt, iWord, BitVec.getLsbD_extractLsb', BitVec.getLsbD_append]
  interval_cases i <;> simp

@[simp] theorem fieldImm_iWord (op : BitVec 6) (rs : BitVec 5) (rt : BitVec 5) (imm : BitVec 16) :
    fieldImm (iWord op rs rt imm) = imm := by
  apply BitVec.eq_of_getLsbD_eq
  intro i hi
  simp only [fieldImm, iWord, BitVec.getLsbD_extractLsb', BitVec.getLsbD_append]
  interval_cases i <;> simp

@[simp] theorem fieldIndex_jWord (op : BitVec 6) (index : BitVec 26) :
    fieldIndex (jWord op index) = index := by
  apply BitVec.eq_of_getLsbD_eq
  intro i hi
  simp only [fieldIndex, jWord, BitVec.getLsbD_extractLsb', BitVec.getLsbD_append]
  interval_cases i <;> simp

@[simp] theorem fieldCode_trapWord (code : BitVec 20) :
    fieldCode (trapWord code) = code := by
  apply BitVec.eq_of_getLsbD_eq
  intro i hi
  simp only [fieldCode, trapWord, BitVec.getLsbD_extractLsb', BitVec.getLsbD_append]
  interval_cases i <;> simp

@[simp] theorem fieldRt_compareWord (fmt : BitVec 5) (ft : BitVec 5) (fs : BitVec 5) (cc : BitVec 3) (cond : BitVec 4) :
    fieldRt (compareWord fmt ft fs cc cond) = ft := by
  apply BitVec.eq_of_getLsbD_eq
  intro i hi
  simp only [fieldRt, compareWord, BitVec.getLsbD_extractLsb', BitVec.getLsbD_append]
  interval_cases i <;> simp

@[simp] theorem fieldRd_compareWord (fmt : BitVec 5) (ft : BitVec 5) (fs : BitVec 5) (cc : BitVec 3) (cond : BitVec 4) :
    fieldRd (compareWord fmt ft fs cc cond) = fs := by
  apply BitVec.eq_of_getLsbD_eq
  intro i hi
  simp only [fieldRd, compareWord, BitVec.getLsbD_extractLsb', BitVec.getLsbD_append]
  interval_cases i <;> simp

@[simp] theorem fieldCompareCc_compareWord (fmt : BitVec 5) (ft : BitVec 5) (fs : BitVec 5) (cc : BitVec 3) (cond : BitVec 4) :
    fieldCompareCc (compareWord fmt ft fs cc cond) = cc := by
  apply BitVec.eq_of_getLsbD_eq
  intro i hi
  simp only [fieldCompareCc, compareWord, BitVec.getLsbD_extractLsb', BitVec.getLsbD_append]
  interval_cases i <;> simp

@[simp] theorem fieldBranchCc_fpBranchWord (cc : BitVec 3) (tf : BitVec 1) (offset : BitVec 16) :
    fieldBranchCc (fpBranchWord cc tf offset) = cc := by
  apply BitVec.eq_of_getLsbD_eq
  intro i hi
  simp only [fieldBranchCc, fpBranchWord, BitVec.getLsbD_extractLsb', BitVec.getLsbD_append]
  interval_cases i <;> simp

@[simp] theorem fieldImm_fpBranchWord (cc : BitVec 3) (tf : BitVec 1) (offset : BitVec 16) :
    fieldImm (fpBranchWord cc tf offset) = offset := by
  apply BitVec.eq_of_getLsbD_eq
  intro i hi
  simp only [fieldImm, fpBranchWord, BitVec.getLsbD_extractLsb', BitVec.getLsbD_append]
  interval_cases i <;> simp

-- Bytes of a word

/-- The four bytes of a word, put together again, are the word (R63). -/
theorem decodeBytes_bytesOfWord (e : Endian) (w : IWord) (rest : List Byte) :
    decodeBytes e (bytesOfWord e w ++ rest) = (decode w).map fun i => (i, rest) := by
  have h : w.extractLsb' 24 8 ++ w.extractLsb' 16 8 ++ w.extractLsb' 8 8 ++ w.extractLsb' 0 8 = w := by
    apply BitVec.eq_of_getLsbD_eq
    intro i hi
    simp only [BitVec.getLsbD_append, BitVec.getLsbD_extractLsb']
    interval_cases i <;> simp
  cases e <;> simp only [decodeBytes, bytesOfWord, wordOfBytes, List.reverse_cons, List.reverse_nil, List.nil_append,
    List.cons_append, h] <;> cases decode w <;> rfl

end Sys2Proof
end

