-- ==== Sys2Proof/Laws/Memory.lean ====
section
/-! SUPPORT. The laws of memory (spec/20_memory.md R60, R67, R75): what a byte reads as after a store, and that every memory
operation keeps the canonical form. -/

namespace Sys2Proof.Machine

/-- A byte after a store of one byte, of any memory. -/
theorem Memory.lookup_store (m : Memory) (a : Nat) (b : Byte) (n : Nat) :
    (m.store a b).lookup n = if n = a then some b else m.lookup n := by
  induction m with
  | nil =>
    by_cases h : n = a
    · subst h; simp [Memory.store, Memory.lookup]
    · simp [Memory.store, Memory.lookup, h, Ne.symm h]
  | cons c m ih =>
    obtain ⟨k, c⟩ := c
    simp only [Memory.store]
    split
    · by_cases h : n = a
      · subst h; simp [Memory.lookup]
      · simp [Memory.lookup, h, Ne.symm h]
    · split
      · rename_i h
        subst h
        by_cases h : n = a
        · subst h; simp [Memory.lookup]
        · simp [Memory.lookup, h, Ne.symm h]
      · rename_i h
        simp only [Memory.lookup, ih]
        by_cases hk : k = n
        · subst hk; simp [Ne.symm h]
        · simp [hk]

/-- The addresses of a memory after a store are its own and the one stored to. -/
theorem Memory.mem_store (m : Memory) (a : Nat) (b : Byte) :
    ∀ c ∈ m.store a b, c.1 = a ∨ ∃ d ∈ m, d.1 = c.1 := by
  induction m with
  | nil => simp [Memory.store]
  | cons d m ih =>
    obtain ⟨k, d⟩ := d
    intro c hc
    simp only [Memory.store] at hc
    split at hc
    · rcases List.mem_cons.mp hc with rfl | hc
      · exact .inl rfl
      · exact .inr ⟨c, hc, rfl⟩
    · split at hc
      · rcases List.mem_cons.mp hc with rfl | hc
        · exact .inl rfl
        · exact .inr ⟨c, List.mem_cons_of_mem _ hc, rfl⟩
      · rcases List.mem_cons.mp hc with rfl | hc
        · exact .inr ⟨_, List.mem_cons_self, rfl⟩
        · rcases ih c hc with h | ⟨e, he, h⟩
          · exact .inl h
          · exact .inr ⟨e, List.mem_cons_of_mem _ he, h⟩

/-- A store of one byte keeps the canonical form. -/
theorem Memory.wf_store {m : Memory} (h : m.wf) (a : Nat) (b : Byte) (ha : a < 2 ^ 64) : (m.store a b).wf := by
  refine ⟨?_, fun c hc => ?_⟩
  · obtain ⟨h, -⟩ := h
    induction m with
    | nil => simp [Memory.store]
    | cons d m ih =>
      obtain ⟨k, d⟩ := d
      rw [List.pairwise_cons] at h
      simp only [Memory.store]
      split
      · rename_i hk
        refine List.pairwise_cons.mpr ⟨fun c hc => ?_, List.pairwise_cons.mpr h⟩
        rcases List.mem_cons.mp hc with rfl | hc
        · exact hk
        · exact Nat.lt_trans hk (h.1 c hc)
      · split
        · rename_i hk
          subst hk
          exact List.pairwise_cons.mpr h
        · rename_i hk he
          refine List.pairwise_cons.mpr ⟨fun c hc => ?_, ih h.2⟩
          rcases Memory.mem_store m a b c hc with hc | ⟨e, he, hc⟩
          · simp only; omega
          · exact hc ▸ h.1 e he
  · rcases Memory.mem_store m a b c hc with hc | ⟨e, he, hc⟩
    · omega
    · exact hc ▸ h.2 e he

/-- A store of several bytes keeps the canonical form. -/
theorem Memory.wf_storeBytes {m : Memory} (h : m.wf) (a : Word) (bs : List Byte) : (m.storeBytes a bs).wf := by
  induction bs generalizing m a with
  | nil => exact h
  | cons b bs ih => exact ih (Memory.wf_store h a.toNat b a.isLt) (a + 1)

/-- A byte after a store of several bytes that does not run past the last address. -/
theorem Memory.lookup_storeBytes (m : Memory) (a : Word) (bs : List Byte) (h : a.toNat + bs.length ≤ 2 ^ 64) (n : Nat) :
    (m.storeBytes a bs).lookup n =
      if a.toNat ≤ n ∧ n < a.toNat + bs.length then bs[n - a.toNat]? else m.lookup n := by
  induction bs generalizing m a with
  | nil =>
    simp [Memory.storeBytes]
  | cons b bs ih =>
    rw [List.length_cons] at h
    by_cases hb : bs = []
    · subst hb
      simp only [Memory.storeBytes, Memory.lookup_store]
      by_cases hn : n = a.toNat
      · subst hn; simp
      · rw [if_neg hn, if_neg (by simp; omega)]
    · have hl : 0 < bs.length := List.length_pos_iff.mpr hb
      have ha : (a + 1).toNat = a.toNat + 1 := by
        rw [BitVec.toNat_add]
        have : a.toNat + (1 : Word).toNat = a.toNat + 1 := rfl
        omega
      simp only [Memory.storeBytes]
      rw [ih _ _ (by omega), ha, Memory.lookup_store]
      by_cases hn : n = a.toNat
      · subst hn
        rw [if_neg (by omega), if_pos rfl, if_pos (by simp)]; simp
      · by_cases hr : a.toNat + 1 ≤ n ∧ n < a.toNat + 1 + bs.length
        · rw [if_pos hr, if_pos (by rw [List.length_cons]; omega)]
          have : n - a.toNat = n - (a.toNat + 1) + 1 := by omega
          rw [this, List.getElem?_cons_succ]
        · rw [if_neg hr, if_neg hn, if_neg (by rw [List.length_cons]; omega)]

/-- `bytesOfValue` gives k bytes. -/
@[simp] theorem length_bytesOfValue (e : Endian) (k : Nat) (v : Word) : (bytesOfValue e k v).length = k := by
  cases e <;> simp [bytesOfValue]

/-- Byte i of a value of k bytes (R63). -/
theorem getElem?_bytesOfValue (e : Endian) (k : Nat) (v : Word) (i : Nat) (h : i < k) :
    (bytesOfValue e k v)[i]? = some (match e with
      | .big => v.extractLsb' (8 * (k - 1 - i)) 8
      | .little => v.extractLsb' (8 * i) 8) := by
  cases e
  · simp [bytesOfValue, h]
  · simp [bytesOfValue, h]

/-- An address of an access that is aligned to its size, or of one byte, is the first address plus the byte's number. -/
theorem byteAddr_toNat (a : Word) (i k : Nat) (hk : k ∣ 2 ^ 64) (ha : a.toNat % k = 0) (hi : i < k) :
    (byteAddr a i).toNat = a.toNat + i := by
  obtain ⟨q, hq⟩ := hk
  obtain ⟨p, hp⟩ := Nat.dvd_of_mod_eq_zero ha
  have h1 : a.toNat < 2 ^ 64 := a.isLt
  have h2 : p < q := by
    rw [hq, hp] at h1
    exact Nat.lt_of_mul_lt_mul_left h1
  have h3 : a.toNat + k ≤ 2 ^ 64 := by
    rw [hq, hp, ← Nat.mul_succ]
    exact Nat.mul_le_mul_left k h2
  have h4 : i % 2 ^ 64 = i := Nat.mod_eq_of_lt (by omega)
  rw [byteAddr, BitVec.toNat_add, BitVec.toNat_ofNat, h4, Nat.mod_eq_of_lt (by omega)]

/-- The memory at reset is in canonical form. -/
theorem reset_mem_wf : State.reset.mem.wf := ⟨.nil, by simp [State.reset, State.resetWith]⟩

end Sys2Proof.Machine
end

