-- ==== Sys2Proof/Laws/State.lean ====
section
/-! SUPPORT. One lemma per field per update of the state, and what a register reads after a write (spec/10_state.md R13, R31). -/

namespace Sys2Proof.Machine

-- drawn

@[simp] theorem drawn_gpr (s : State) : (drawn s).gpr = s.gpr := rfl
@[simp] theorem drawn_hi (s : State) : (drawn s).hi = s.hi := rfl
@[simp] theorem drawn_lo (s : State) : (drawn s).lo = s.lo := rfl
@[simp] theorem drawn_pc (s : State) : (drawn s).pc = s.pc := rfl
@[simp] theorem drawn_delay (s : State) : (drawn s).delay = s.delay := rfl
@[simp] theorem drawn_fpr (s : State) : (drawn s).fpr = s.fpr := rfl
@[simp] theorem drawn_fcc (s : State) : (drawn s).fcc = s.fcc := rfl
@[simp] theorem drawn_status (s : State) : (drawn s).status = s.status := rfl
@[simp] theorem drawn_cause (s : State) : (drawn s).cause = s.cause := rfl
@[simp] theorem drawn_epc (s : State) : (drawn s).epc = s.epc := rfl
@[simp] theorem drawn_badVAddr (s : State) : (drawn s).badVAddr = s.badVAddr := rfl
@[simp] theorem drawn_mem (s : State) : (drawn s).mem = s.mem := rfl
@[simp] theorem drawn_text (s : State) : (drawn s).text = s.text := rfl
@[simp] theorem drawn_params (s : State) : (drawn s).params = s.params := rfl
@[simp] theorem drawn_draws (s : State) : (drawn s).draws = s.draws + 1 := rfl

-- writeGpr

@[simp] theorem writeGpr_hi (s : State) (r : Reg) (v : Word) : (writeGpr s r v).hi = s.hi := by unfold writeGpr; split <;> rfl
@[simp] theorem writeGpr_lo (s : State) (r : Reg) (v : Word) : (writeGpr s r v).lo = s.lo := by unfold writeGpr; split <;> rfl
@[simp] theorem writeGpr_pc (s : State) (r : Reg) (v : Word) : (writeGpr s r v).pc = s.pc := by unfold writeGpr; split <;> rfl
@[simp] theorem writeGpr_delay (s : State) (r : Reg) (v : Word) : (writeGpr s r v).delay = s.delay := by unfold writeGpr; split <;> rfl
@[simp] theorem writeGpr_fpr (s : State) (r : Reg) (v : Word) : (writeGpr s r v).fpr = s.fpr := by unfold writeGpr; split <;> rfl
@[simp] theorem writeGpr_fcc (s : State) (r : Reg) (v : Word) : (writeGpr s r v).fcc = s.fcc := by unfold writeGpr; split <;> rfl
@[simp] theorem writeGpr_status (s : State) (r : Reg) (v : Word) : (writeGpr s r v).status = s.status := by unfold writeGpr; split <;> rfl
@[simp] theorem writeGpr_cause (s : State) (r : Reg) (v : Word) : (writeGpr s r v).cause = s.cause := by unfold writeGpr; split <;> rfl
@[simp] theorem writeGpr_epc (s : State) (r : Reg) (v : Word) : (writeGpr s r v).epc = s.epc := by unfold writeGpr; split <;> rfl
@[simp] theorem writeGpr_badVAddr (s : State) (r : Reg) (v : Word) : (writeGpr s r v).badVAddr = s.badVAddr := by unfold writeGpr; split <;> rfl
@[simp] theorem writeGpr_mem (s : State) (r : Reg) (v : Word) : (writeGpr s r v).mem = s.mem := by unfold writeGpr; split <;> rfl
@[simp] theorem writeGpr_text (s : State) (r : Reg) (v : Word) : (writeGpr s r v).text = s.text := by unfold writeGpr; split <;> rfl
@[simp] theorem writeGpr_params (s : State) (r : Reg) (v : Word) : (writeGpr s r v).params = s.params := by unfold writeGpr; split <;> rfl
@[simp] theorem writeGpr_draws (s : State) (r : Reg) (v : Word) : (writeGpr s r v).draws = s.draws := by unfold writeGpr; split <;> rfl

-- writeHiLo

@[simp] theorem writeHiLo_gpr (s : State) (h l : Word) : (writeHiLo s h l).gpr = s.gpr := rfl
@[simp] theorem writeHiLo_hi (s : State) (h l : Word) : (writeHiLo s h l).hi = h := rfl
@[simp] theorem writeHiLo_lo (s : State) (h l : Word) : (writeHiLo s h l).lo = l := rfl
@[simp] theorem writeHiLo_pc (s : State) (h l : Word) : (writeHiLo s h l).pc = s.pc := rfl
@[simp] theorem writeHiLo_delay (s : State) (h l : Word) : (writeHiLo s h l).delay = s.delay := rfl
@[simp] theorem writeHiLo_fpr (s : State) (h l : Word) : (writeHiLo s h l).fpr = s.fpr := rfl
@[simp] theorem writeHiLo_fcc (s : State) (h l : Word) : (writeHiLo s h l).fcc = s.fcc := rfl
@[simp] theorem writeHiLo_status (s : State) (h l : Word) : (writeHiLo s h l).status = s.status := rfl
@[simp] theorem writeHiLo_cause (s : State) (h l : Word) : (writeHiLo s h l).cause = s.cause := rfl
@[simp] theorem writeHiLo_epc (s : State) (h l : Word) : (writeHiLo s h l).epc = s.epc := rfl
@[simp] theorem writeHiLo_badVAddr (s : State) (h l : Word) : (writeHiLo s h l).badVAddr = s.badVAddr := rfl
@[simp] theorem writeHiLo_mem (s : State) (h l : Word) : (writeHiLo s h l).mem = s.mem := rfl
@[simp] theorem writeHiLo_text (s : State) (h l : Word) : (writeHiLo s h l).text = s.text := rfl
@[simp] theorem writeHiLo_params (s : State) (h l : Word) : (writeHiLo s h l).params = s.params := rfl
@[simp] theorem writeHiLo_draws (s : State) (h l : Word) : (writeHiLo s h l).draws = s.draws := rfl

-- writeFpr

@[simp] theorem writeFpr_gpr (s : State) (r : FReg) (v : Word) : (writeFpr s r v).gpr = s.gpr := rfl
@[simp] theorem writeFpr_hi (s : State) (r : FReg) (v : Word) : (writeFpr s r v).hi = s.hi := rfl
@[simp] theorem writeFpr_lo (s : State) (r : FReg) (v : Word) : (writeFpr s r v).lo = s.lo := rfl
@[simp] theorem writeFpr_pc (s : State) (r : FReg) (v : Word) : (writeFpr s r v).pc = s.pc := rfl
@[simp] theorem writeFpr_delay (s : State) (r : FReg) (v : Word) : (writeFpr s r v).delay = s.delay := rfl
@[simp] theorem writeFpr_fcc (s : State) (r : FReg) (v : Word) : (writeFpr s r v).fcc = s.fcc := rfl
@[simp] theorem writeFpr_status (s : State) (r : FReg) (v : Word) : (writeFpr s r v).status = s.status := rfl
@[simp] theorem writeFpr_cause (s : State) (r : FReg) (v : Word) : (writeFpr s r v).cause = s.cause := rfl
@[simp] theorem writeFpr_epc (s : State) (r : FReg) (v : Word) : (writeFpr s r v).epc = s.epc := rfl
@[simp] theorem writeFpr_badVAddr (s : State) (r : FReg) (v : Word) : (writeFpr s r v).badVAddr = s.badVAddr := rfl
@[simp] theorem writeFpr_mem (s : State) (r : FReg) (v : Word) : (writeFpr s r v).mem = s.mem := rfl
@[simp] theorem writeFpr_text (s : State) (r : FReg) (v : Word) : (writeFpr s r v).text = s.text := rfl
@[simp] theorem writeFpr_params (s : State) (r : FReg) (v : Word) : (writeFpr s r v).params = s.params := rfl
@[simp] theorem writeFpr_draws (s : State) (r : FReg) (v : Word) : (writeFpr s r v).draws = s.draws := rfl

-- writeFprLow

@[simp] theorem writeFprLow_gpr (s : State) (r : FReg) (v : BitVec 32) : (writeFprLow s r v).gpr = s.gpr := rfl
@[simp] theorem writeFprLow_hi (s : State) (r : FReg) (v : BitVec 32) : (writeFprLow s r v).hi = s.hi := rfl
@[simp] theorem writeFprLow_lo (s : State) (r : FReg) (v : BitVec 32) : (writeFprLow s r v).lo = s.lo := rfl
@[simp] theorem writeFprLow_pc (s : State) (r : FReg) (v : BitVec 32) : (writeFprLow s r v).pc = s.pc := rfl
@[simp] theorem writeFprLow_delay (s : State) (r : FReg) (v : BitVec 32) : (writeFprLow s r v).delay = s.delay := rfl
@[simp] theorem writeFprLow_fcc (s : State) (r : FReg) (v : BitVec 32) : (writeFprLow s r v).fcc = s.fcc := rfl
@[simp] theorem writeFprLow_status (s : State) (r : FReg) (v : BitVec 32) : (writeFprLow s r v).status = s.status := rfl
@[simp] theorem writeFprLow_cause (s : State) (r : FReg) (v : BitVec 32) : (writeFprLow s r v).cause = s.cause := rfl
@[simp] theorem writeFprLow_epc (s : State) (r : FReg) (v : BitVec 32) : (writeFprLow s r v).epc = s.epc := rfl
@[simp] theorem writeFprLow_badVAddr (s : State) (r : FReg) (v : BitVec 32) : (writeFprLow s r v).badVAddr = s.badVAddr := rfl
@[simp] theorem writeFprLow_mem (s : State) (r : FReg) (v : BitVec 32) : (writeFprLow s r v).mem = s.mem := rfl
@[simp] theorem writeFprLow_text (s : State) (r : FReg) (v : BitVec 32) : (writeFprLow s r v).text = s.text := rfl
@[simp] theorem writeFprLow_params (s : State) (r : FReg) (v : BitVec 32) : (writeFprLow s r v).params = s.params := rfl
@[simp] theorem writeFprLow_draws (s : State) (r : FReg) (v : BitVec 32) : (writeFprLow s r v).draws = s.draws + 1 := rfl

-- writeFcc

@[simp] theorem writeFcc_gpr (s : State) (c : Cc) (b : Bool) : (writeFcc s c b).gpr = s.gpr := rfl
@[simp] theorem writeFcc_hi (s : State) (c : Cc) (b : Bool) : (writeFcc s c b).hi = s.hi := rfl
@[simp] theorem writeFcc_lo (s : State) (c : Cc) (b : Bool) : (writeFcc s c b).lo = s.lo := rfl
@[simp] theorem writeFcc_pc (s : State) (c : Cc) (b : Bool) : (writeFcc s c b).pc = s.pc := rfl
@[simp] theorem writeFcc_delay (s : State) (c : Cc) (b : Bool) : (writeFcc s c b).delay = s.delay := rfl
@[simp] theorem writeFcc_fpr (s : State) (c : Cc) (b : Bool) : (writeFcc s c b).fpr = s.fpr := rfl
@[simp] theorem writeFcc_status (s : State) (c : Cc) (b : Bool) : (writeFcc s c b).status = s.status := rfl
@[simp] theorem writeFcc_cause (s : State) (c : Cc) (b : Bool) : (writeFcc s c b).cause = s.cause := rfl
@[simp] theorem writeFcc_epc (s : State) (c : Cc) (b : Bool) : (writeFcc s c b).epc = s.epc := rfl
@[simp] theorem writeFcc_badVAddr (s : State) (c : Cc) (b : Bool) : (writeFcc s c b).badVAddr = s.badVAddr := rfl
@[simp] theorem writeFcc_mem (s : State) (c : Cc) (b : Bool) : (writeFcc s c b).mem = s.mem := rfl
@[simp] theorem writeFcc_text (s : State) (c : Cc) (b : Bool) : (writeFcc s c b).text = s.text := rfl
@[simp] theorem writeFcc_params (s : State) (c : Cc) (b : Bool) : (writeFcc s c b).params = s.params := rfl
@[simp] theorem writeFcc_draws (s : State) (c : Cc) (b : Bool) : (writeFcc s c b).draws = s.draws := rfl

-- Registers after a write

@[simp] theorem readGpr_zero (s : State) : readGpr s 0 = 0 := if_pos rfl

/-- A register after a write; a write to x[0] is discarded (R31). -/
theorem readGpr_writeGpr (s : State) (r q : Reg) (v : Word) :
    readGpr (writeGpr s r v) q = if q = r ∧ q ≠ 0 then v else readGpr s q := by
  by_cases hq : q = 0
  · rw [if_neg (fun h => h.2 hq), hq, readGpr_zero, readGpr_zero]
  · by_cases hr : r = 0
    · rw [if_neg (fun h => hq (h.1.trans hr)), writeGpr, if_pos hr]
    · rw [readGpr, if_neg hq, writeGpr, if_neg hr]
      by_cases h : q = r
      · subst h; rw [if_pos ⟨rfl, hq⟩]; simp
      · have hn : r.toNat ≠ q.toNat := fun e => h (BitVec.eq_of_toNat_eq e).symm
        rw [if_neg (fun c => h c.1), readGpr, if_neg hq]; simp [hn]

@[simp] theorem writeGpr_zero (s : State) (v : Word) : writeGpr s 0 v = s := if_pos rfl

theorem readFpr_writeFpr (s : State) (r q : FReg) (v : Word) :
    readFpr (writeFpr s r v) q = if q = r then v else readFpr s q := by
  by_cases h : q = r
  · subst h; simp [readFpr, writeFpr]
  · have hn : r.toNat ≠ q.toNat := fun e => h (BitVec.eq_of_toNat_eq e).symm
    simp [readFpr, writeFpr, h, hn]

/-- The low half of a register after a 32-bit write is the value written (R38). -/
theorem readFpr_writeFprLow_same (s : State) (r : FReg) (v : BitVec 32) :
    (readFpr (writeFprLow s r v) r).extractLsb' 0 32 = v := by
  have h : readFpr (writeFprLow s r v) r = (any64 s).extractLsb' 32 32 ++ v := by
    change readFpr (writeFpr s r _) r = _
    simp [readFpr_writeFpr]
  rw [h, BitVec.extractLsb'_append_eq_right]

theorem readFpr_writeFprLow_other (s : State) (r q : FReg) (v : BitVec 32) (h : q ≠ r) :
    readFpr (writeFprLow s r v) q = readFpr s q := by
  change readFpr (writeFpr s r _) q = _
  simp [readFpr_writeFpr, h]

theorem readFcc_writeFcc (s : State) (c d : Cc) (b : Bool) :
    readFcc (writeFcc s c b) d = if d = c then b else readFcc s d := by
  by_cases h : d = c
  · subst h; simp [readFcc, writeFcc]
  · have hn : c.toNat ≠ d.toNat := fun e => h (BitVec.eq_of_toNat_eq e).symm
    simp [readFcc, writeFcc, h, hn]

-- A read depends on its own storage only

theorem readGpr_congr {s t : State} (h : t.gpr = s.gpr) (r : Reg) : readGpr t r = readGpr s r := by
  simp [readGpr, h]

theorem readFpr_congr {s t : State} (h : t.fpr = s.fpr) (r : FReg) : readFpr t r = readFpr s r := by
  simp [readFpr, h]

theorem readFcc_congr {s t : State} (h : t.fcc = s.fcc) (c : Cc) : readFcc t c = readFcc s c := by
  simp [readFcc, h]

theorem mode_congr {s t : State} (h : t.status = s.status) : mode t = mode s := by
  simp [mode, exl, erl, ksu, h]

-- The fields of the reset state that spec/10_state.md Table 10-1 names

@[simp] theorem reset_pc : State.reset.pc = Config.resetPc := rfl
@[simp] theorem reset_delay : State.reset.delay = none := rfl
@[simp] theorem reset_mem : State.reset.mem = [] := rfl
@[simp] theorem reset_status : State.reset.status = 0b100 := rfl

end Sys2Proof.Machine
end

