-- ==== Sys2Proof/Laws/Ops.lean ====
section
/-! SUPPORT. What each shared operation can do, said once: the outcomes of the operations that end an instruction, of the access
checks, of loads, stores and coprocessor-0 accesses, and of a step. -/

namespace Sys2Proof.Machine

-- The end of an instruction (spec/45_control_transfer.md R196)

theorem fits_of_lt {s : State} {n : Nat} (h : s.pc.toNat + n < 2 ^ 64) : fits s n = true := decide_eq_true h

theorem not_fits {s : State} {n : Nat} (h : ¬s.pc.toNat + n < 2 ^ 64) : fits s n = false := decide_eq_false h

/-- A sequential instruction advances, or is refused where pc would wrap. -/
theorem advance_cases (s : State) :
    (s.delay = none ∧ 2 ^ 64 ≤ s.pc.toNat + 4 ∧ advance s = .refused .pcWraps) ∨
    ((s.delay = none → s.pc.toNat + 4 < 2 ^ 64) ∧
      advance s = .next { s with pc := s.delay.getD (s.pc + 4), delay := none }) := by
  unfold advance
  cases hd : s.delay with
  | some d => exact .inr ⟨by simp, rfl⟩
  | none =>
    by_cases h : s.pc.toNat + 4 < 2 ^ 64
    · refine .inr ⟨fun _ => h, ?_⟩
      simp only [fits_of_lt h, if_true, Option.getD_none]
    · refine .inl ⟨rfl, Nat.le_of_not_lt h, ?_⟩
      simp [not_fits h]

/-- The next state of a sequential instruction that does not wrap. -/
theorem advance_next {s : State} (h : s.delay = none → s.pc.toNat + 4 < 2 ^ 64) :
    advance s = .next { s with pc := s.delay.getD (s.pc + 4), delay := none } := by
  rcases advance_cases s with ⟨hd, hw, -⟩ | ⟨-, he⟩
  · exact absurd (h hd) (Nat.not_lt.mpr hw)
  · exact he

/-- If `advance` answers a next state, it is this one. -/
theorem eq_of_advance {s t : State} (h : advance s = .next t) :
    t = { s with pc := s.delay.getD (s.pc + 4), delay := none } := by
  rcases advance_cases s with ⟨-, -, he⟩ | ⟨-, he⟩ <;> rw [he] at h <;> cases h
  rfl

/-- If `transfer` answers a next state, it is this one. -/
theorem eq_of_transfer {target : Word} {s t : State} (h : transfer target s = .next t) :
    t = if s.params.delaySlot then { s with delay := some target, pc := s.pc + 4 } else { s with pc := target } := by
  unfold transfer at h
  split at h
  · split at h
    · cases h; simp [*]
    · cases h
  · cases h; simp [*]

/-- The next state of a jump or a taken branch that does not wrap. -/
theorem transfer_next {s : State} (target : Word) (h : s.params.delaySlot = true → s.pc.toNat + 4 < 2 ^ 64) :
    transfer target s = .next
      (if s.params.delaySlot then { s with delay := some target, pc := s.pc + 4 } else { s with pc := target }) := by
  unfold transfer
  by_cases hd : s.params.delaySlot = true
  · simp [hd, fits_of_lt (h hd)]
  · simp [hd]

/-- If `notTaken` answers a next state, it is this one. -/
theorem eq_of_notTaken {s t : State} (h : notTaken s = .next t) :
    t = if s.params.delaySlot then { s with delay := some (s.pc + 8), pc := s.pc + 4 } else { s with pc := s.pc + 4 } := by
  unfold notTaken at h
  split at h
  · split at h
    · cases h; simp [*]
    · cases h
  · split at h
    · cases h; simp [*]
    · cases h

/-- The next state of a branch not taken that does not wrap. -/
theorem notTaken_next {s : State} (h : s.pc.toNat + (if s.params.delaySlot = true then 8 else 4) < 2 ^ 64) :
    notTaken s = .next
      (if s.params.delaySlot then { s with delay := some (s.pc + 8), pc := s.pc + 4 } else { s with pc := s.pc + 4 }) := by
  unfold notTaken
  by_cases hd : s.params.delaySlot = true
  · rw [if_pos hd] at h
    simp [hd, fits_of_lt h]
  · rw [if_neg hd] at h
    simp [hd, fits_of_lt h]

/-- What a control transfer does in a delay slot and out of it. -/
theorem outsideSlot_cases (s : State) (k : Result) :
    (s.delay ≠ none ∧ outsideSlot s k = .refused .controlTransferInDelaySlot) ∨ (s.delay = none ∧ outsideSlot s k = k) := by
  unfold outsideSlot
  cases s.delay <;> simp

/-- If a branch answers a next state, it stands in no delay slot and goes to its target or falls through. -/
theorem branch_cases {c : Bool} {offset : Imm} {s t : State} (h : branch c offset s = .next t) :
    s.delay = none ∧
    ((c = true ∧ branchWraps s.pc offset = false ∧ transfer (branchTarget s.pc offset) s = .next t) ∨
      (c = false ∧ notTaken s = .next t)) := by
  unfold branch at h
  rcases outsideSlot_cases s (if c then if branchWraps s.pc offset then .refused .pcWraps
      else transfer (branchTarget s.pc offset) s else notTaken s) with ⟨-, e⟩ | ⟨hd, e⟩
  · rw [e] at h; cases h
  · rw [e] at h
    refine ⟨hd, ?_⟩
    cases c
    · exact .inr ⟨rfl, h⟩
    · simp only [if_true] at h
      split at h
      · cases h
      · exact .inl ⟨rfl, by simp_all, h⟩

-- Exceptions (spec/60_exceptions.md R296)

/-- An exception enters the handler or ends the run. -/
theorem raise_cases (e : Exn) (s : State) :
    (s.params.hostTraps = true ∧ raise e s = .fault (.trapped e s.pc)) ∨
    (s.params.hostTraps = false ∧ raise e s = .next (trapEntry e s)) := by
  unfold raise
  cases s.params.hostTraps <;> simp

/-- A stop answers the next state of an exception, or no next state. -/
theorem stopWith_next {s t : State} {x : Stop} (h : stopWith s x = .next t) :
    ∃ e, x = .raise e ∧ s.params.hostTraps = false ∧ t = trapEntry e s := by
  cases x with
  | refuse r => cases h
  | raise e =>
    refine ⟨e, rfl, ?_⟩
    rcases raise_cases e s with ⟨-, he⟩ | ⟨hh, he⟩ <;> simp only [stopWith, he] at h <;> cases h
    exact ⟨hh, rfl⟩

/-- What an instruction of Kernel mode does in each mode. -/
theorem kernelOnly_cases (s : State) (k : Result) :
    (mode s = none ∧ kernelOnly s k = .refused .modeNotModelled) ∨
    (mode s = some .user ∧ kernelOnly s k = raise (.coprocessorUnusable 0) s) ∨
    (mode s = some .kernel ∧ kernelOnly s k = k) := by
  unfold kernelOnly
  rcases mode s with _ | m
  · exact .inl ⟨rfl, rfl⟩
  · cases m
    · exact .inr (.inr ⟨rfl, rfl⟩)
    · exact .inr (.inl ⟨rfl, rfl⟩)

/-- The fields that trap entry leaves alone. -/
@[simp] theorem trapEntry_gpr (e : Exn) (s : State) : (trapEntry e s).gpr = s.gpr := rfl
@[simp] theorem trapEntry_hi (e : Exn) (s : State) : (trapEntry e s).hi = s.hi := rfl
@[simp] theorem trapEntry_lo (e : Exn) (s : State) : (trapEntry e s).lo = s.lo := rfl
@[simp] theorem trapEntry_fpr (e : Exn) (s : State) : (trapEntry e s).fpr = s.fpr := rfl
@[simp] theorem trapEntry_fcc (e : Exn) (s : State) : (trapEntry e s).fcc = s.fcc := rfl
@[simp] theorem trapEntry_mem (e : Exn) (s : State) : (trapEntry e s).mem = s.mem := rfl
@[simp] theorem trapEntry_text (e : Exn) (s : State) : (trapEntry e s).text = s.text := rfl
@[simp] theorem trapEntry_params (e : Exn) (s : State) : (trapEntry e s).params = s.params := rfl
@[simp] theorem trapEntry_delay (e : Exn) (s : State) : (trapEntry e s).delay = none := rfl
@[simp] theorem trapEntry_pc (e : Exn) (s : State) : (trapEntry e s).pc = s.params.excVector := rfl
@[simp] theorem trapEntry_status (e : Exn) (s : State) : (trapEntry e s).status = setExl s.status := rfl
@[simp] theorem trapEntry_badVAddr (e : Exn) (s : State) : (trapEntry e s).badVAddr = badVAddrAfter e s.badVAddr := rfl
@[simp] theorem trapEntry_excCode (e : Exn) (s : State) : (trapEntry e s).cause.excCode = excCodeOf e := rfl

/-- Status bit by bit after EXL is set. -/
theorem getLsbD_setExl (st : Word) (k : Nat) (h : k < 64) : (setExl st).getLsbD k = (k == 1 || st.getLsbD k) := by
  simp only [setExl, BitVec.getLsbD_or]
  have h2 : (0b10 : Word).getLsbD k = (k == 1) := by
    have : ∀ i : Fin 64, (0b10 : Word).getLsbD i.val = (i.val == 1) := by decide
    exact this ⟨k, h⟩
  rw [h2, Bool.or_comm]

/-- Status bit by bit after EXL is cleared. -/
theorem getLsbD_clearExl (st : Word) (k : Nat) (h : k < 64) : (clearExl st).getLsbD k = (k != 1 && st.getLsbD k) := by
  simp only [clearExl, BitVec.getLsbD_and]
  have h2 : (~~~0b10 : Word).getLsbD k = (k != 1) := by
    have : ∀ i : Fin 64, (~~~0b10 : Word).getLsbD i.val = (i.val != 1) := by decide
    exact this ⟨k, h⟩
  rw [h2, Bool.and_comm]

/-- EXL is set after trap entry. -/
@[simp] theorem exl_trapEntry (e : Exn) (s : State) : exl (trapEntry e s) = true := by
  rw [exl, trapEntry_status, getLsbD_setExl _ _ (by decide)]; rfl

/-- Trap entry enters Kernel mode. -/
@[simp] theorem mode_trapEntry (e : Exn) (s : State) : mode (trapEntry e s) = some .kernel := by
  rw [mode, exl_trapEntry]; rfl

-- Accesses (spec/20_memory.md R66 to R68)

/-- The checks pass exactly when each of them does. -/
theorem checkAccess_ok {a : Word} {k : Nat} {bad bus : Exn} {s : State} :
    checkAccess a k bad bus s = .ok () ↔
      mode s ≠ none ∧ a.toNat % k = 0 ∧ (mode s = some .user → userAccessible s a = true) ∧
      ∀ i < k, backed s (a + BitVec.ofNat 64 i) = true := by
  have hb : allBytes a k (backed s) = true ↔ ∀ i < k, backed s (a + BitVec.ofNat 64 i) = true := by
    simp [allBytes, byteAddr]
  rw [← hb]
  unfold checkAccess
  cases hm : mode s with
  | none => simp
  | some m =>
    cases m <;> cases userAccessible s a <;> cases allBytes a k (backed s) <;> by_cases h1 : a.toNat % k = 0 <;> simp [h1]

/-- The first check that fails, in the order of R66 to R68. -/
theorem checkAccess_error {a : Word} {k : Nat} {bad bus : Exn} {s : State} {x : Stop}
    (h : checkAccess a k bad bus s = .error x) :
    (mode s = none ∧ x = .refuse .modeNotModelled) ∨
    (mode s ≠ none ∧ (a.toNat % k ≠ 0 ∨ (mode s = some .user ∧ userAccessible s a = false)) ∧ x = .raise bad) ∨
    (mode s ≠ none ∧ a.toNat % k = 0 ∧ ¬(mode s = some .user ∧ userAccessible s a = false) ∧
      (∃ i < k, backed s (a + BitVec.ofNat 64 i) = false) ∧ x = .raise bus) := by
  unfold checkAccess at h
  cases hm : mode s with
  | none => rw [hm] at h; cases h; exact .inl ⟨rfl, rfl⟩
  | some m =>
    rw [hm] at h
    right
    simp only at h
    split at h
    · rename_i h1
      cases h
      exact .inl ⟨by simp, .inl h1, rfl⟩
    · rename_i h1
      split at h
      · rename_i h2
        cases h
        exact .inl ⟨by simp, .inr ⟨congrArg some h2.1, h2.2⟩, rfl⟩
      · rename_i h2
        split at h
        · rename_i h3
          cases h
          refine .inr ⟨by simp, not_not.mp h1, fun hc => h2 ⟨Option.some.inj hc.1, hc.2⟩, ?_, rfl⟩
          simpa [allBytes, byteAddr] using h3
        · cases h

/-- If `memWrite` goes through, no byte of it lies in the program text, and memory holds the bytes. -/
theorem memWrite_ok {a : Word} {size : Size} {v : Word} {s t : State} (h : memWrite a size v s = .ok t) :
    checkAccess a (sizeBytes size) (.addressErrorStore a) (.busErrorData a) s = .ok () ∧
    someByte a (sizeBytes size) (inText s) = false ∧
    t = { s with mem := s.mem.storeBytes a (bytesOfValue s.params.endian (sizeBytes size) v) } := by
  unfold memWrite at h
  simp only at h
  cases hc : checkAccess a (sizeBytes size) (.addressErrorStore a) (.busErrorData a) s with
  | error e => rw [hc] at h; cases h
  | ok u =>
    rw [hc] at h
    simp only at h
    split at h
    · cases h
    · rename_i ht
      cases h
      exact ⟨rfl, by simpa using ht, rfl⟩

/-- If a load answers a next state, either its checks passed and it wrote its register, or an exception was taken. -/
theorem load_next {a : Word} {size : Size} {write : State → Word → State} {s t : State} (h : load a size write s = .next t) :
    (checkAccess a (sizeBytes size) (.addressErrorLoad a) (.busErrorData a) s = .ok () ∧
      advance (write (afterRead s a (sizeBytes size))
        (valueOfBytes s.params.endian (readBytes s a (sizeBytes size)))) = .next t) ∨
    (s.params.hostTraps = false ∧
      (t = trapEntry (.addressErrorLoad a) s ∨ t = trapEntry (.busErrorData a) s)) := by
  unfold load memRead at h
  simp only at h
  cases hc : checkAccess a (sizeBytes size) (.addressErrorLoad a) (.busErrorData a) s with
  | ok u =>
    rw [hc] at h
    exact .inl ⟨rfl, h⟩
  | error x =>
    rw [hc] at h
    obtain ⟨e, rfl, hh, ht⟩ := stopWith_next h
    refine .inr ⟨hh, ?_⟩
    rcases checkAccess_error hc with ⟨-, hx⟩ | ⟨-, -, hx⟩ | ⟨-, -, -, -, hx⟩ <;> cases hx
    · exact .inl ht
    · exact .inr ht

/-- If a store answers a next state, either its checks passed and memory holds its bytes, or an exception was taken. -/
theorem store_next {a : Word} {size : Size} {v : Word} {s t : State} (h : store a size v s = .next t) :
    (someByte a (sizeBytes size) (inText s) = false ∧
      checkAccess a (sizeBytes size) (.addressErrorStore a) (.busErrorData a) s = .ok () ∧
      advance { s with mem := s.mem.storeBytes a (bytesOfValue s.params.endian (sizeBytes size) v) } = .next t) ∨
    (s.params.hostTraps = false ∧
      (t = trapEntry (.addressErrorStore a) s ∨ t = trapEntry (.busErrorData a) s)) := by
  unfold store at h
  cases hw : memWrite a size v s with
  | ok u =>
    obtain ⟨hc, ht, rfl⟩ := memWrite_ok hw
    rw [hw] at h
    exact .inl ⟨ht, hc, h⟩
  | error x =>
    rw [hw] at h
    obtain ⟨e, rfl, hh, ht⟩ := stopWith_next h
    refine .inr ⟨hh, ?_⟩
    unfold memWrite at hw
    simp only at hw
    cases hc : checkAccess a (sizeBytes size) (.addressErrorStore a) (.busErrorData a) s with
    | ok u =>
      rw [hc] at hw
      simp only at hw
      split at hw <;> cases hw
    | error y =>
      rw [hc] at hw
      cases hw
      rcases checkAccess_error hc with ⟨-, hx⟩ | ⟨-, -, hx⟩ | ⟨-, -, -, -, hx⟩ <;> cases hx
      · exact .inl ht
      · exact .inr ht

/-- A read changes no field but the count of draws (R66). -/
theorem afterRead_cases (s : State) (a : Word) (k : Nat) : afterRead s a k = s ∨ afterRead s a k = drawn s := by
  unfold afterRead
  split
  · exact .inr rfl
  · exact .inl rfl

/-- A byte that memory lists is read as it is. -/
theorem getElem?_readBytes {s : State} {a : Word} {k i : Nat} (h : i < k) :
    (readBytes s a k)[i]? =
      some ((s.mem.lookup (byteAddr a i).toNat).getD ((any64 s).extractLsb' (8 * i) 8)) := by
  simp [readBytes, h]

-- Coprocessor 0 (spec/10_state.md R39 to R44)

/-- If a c0 register reads, its number is one of the four and the read changed no field but the count of draws. -/
theorem readC0_some {s t : State} {n : CReg} {v : Word} (h : readC0 s n = some (v, t)) :
    (n = 8 ∧ v = s.badVAddr ∧ t = s) ∨ (n = 12 ∧ v = s.status ∧ t = s) ∨
    (n = 13 ∧ v = causeWord s.cause (any64 s) ∧ t = drawn s) ∨ (n = 14 ∧ v = s.epc ∧ t = s) := by
  unfold readC0 at h
  split at h
  · cases h; exact .inl ⟨‹_›, rfl, rfl⟩
  · split at h
    · cases h; exact .inr (.inl ⟨‹_›, rfl, rfl⟩)
    · split at h
      · cases h; exact .inr (.inr (.inl ⟨‹_›, rfl, rfl⟩))
      · split at h
        · cases h; exact .inr (.inr (.inr ⟨‹_›, rfl, rfl⟩))
        · cases h

/-- If a c0 register is written, its number is one of the four; only Status and EPC change. -/
theorem writeC0_some {s t : State} {n : CReg} {v : Word} (h : writeC0 s n v = some t) :
    ((n = 8 ∨ n = 13) ∧ t = s) ∨ (n = 12 ∧ t = { s with status := v }) ∨ (n = 14 ∧ t = { s with epc := v }) := by
  unfold writeC0 at h
  split at h
  · cases h; exact .inl ⟨.inl ‹_›, rfl⟩
  · split at h
    · cases h; exact .inr (.inl ⟨‹_›, rfl⟩)
    · split at h
      · cases h; exact .inl ⟨.inr ‹_›, rfl⟩
      · split at h
        · cases h; exact .inr (.inr ⟨‹_›, rfl⟩)
        · cases h

/-- The 32-bit write: the low half is the value (R162). -/
theorem writeC0Low_some {s t : State} {n : CReg} {v : BitVec 32} (h : writeC0Low s n v = some t) :
    ((n = 8 ∨ n = 13) ∧ t = s) ∨
    (n = 12 ∧ t = { drawn s with status := (any64 s).extractLsb' 32 32 ++ v }) ∨
    (n = 14 ∧ t = { drawn s with epc := (any64 s).extractLsb' 32 32 ++ v }) := by
  unfold writeC0Low at h
  split at h
  · cases h; exact .inl ⟨‹_›, rfl⟩
  · rename_i hn
    rcases writeC0_some h with ⟨h8, -⟩ | h' | h'
    · exact absurd h8 hn
    · exact .inr (.inl h')
    · exact .inr (.inr h')

/-- The fields of Cause in the word a read gives (R42). -/
theorem causeWord_excCode (c : Cause) (junk : Word) : (causeWord c junk).extractLsb' 2 5 = c.excCode := by
  apply BitVec.eq_of_getLsbD_eq
  intro i hi
  simp only [causeWord, BitVec.getLsbD_extractLsb', BitVec.getLsbD_append]
  interval_cases i <;> simp

theorem causeWord_bd (c : Cause) (junk : Word) : (causeWord c junk).getLsbD 31 = c.bd := by
  simp only [causeWord, BitVec.getLsbD_append]
  cases c.bd <;> simp

theorem causeWord_ce (c : Cause) (junk : Word) : (causeWord c junk).extractLsb' 28 2 = c.ce := by
  apply BitVec.eq_of_getLsbD_eq
  intro i hi
  simp only [causeWord, BitVec.getLsbD_extractLsb', BitVec.getLsbD_append]
  interval_cases i <;> simp

-- The record FP (spec/47_floating_point.md R222)

/-- A function of the default record is the IEEE one. -/
theorem ofRecord_ieee {w : Nat} {fp : FpRecord} {op : FpOp} {args : List Word} {ieee : BitVec w} (h : fp.functions = .ieee) :
    ofRecord w fp op args ieee = ieee := by
  simp [ofRecord, h]

-- Fetch and step (spec/20_memory.md R68, spec/70_reset_and_hazards.md R333)

/-- If a fetch goes through, it changed no field but the count of draws. -/
theorem fetch_ok {s t : State} {i : Instr} (h : fetch s = .ok (i, t)) :
    checkAccess s.pc 4 (.addressErrorLoad s.pc) (.busErrorFetch s.pc) s = .ok () ∧ (t = s ∨ t = drawn s) := by
  unfold fetch at h
  cases hc : checkAccess s.pc 4 (.addressErrorLoad s.pc) (.busErrorFetch s.pc) s with
  | error e => rw [hc] at h; cases h
  | ok u =>
    rw [hc] at h
    refine ⟨rfl, ?_⟩
    simp only at h
    split at h
    · cases h
    · split at h
      · cases h; exact .inl rfl
      · split at h
        · cases h; exact afterRead_cases _ _ _
        · cases h

/-- If a step answers a next state, the run is not at its end, and either an instruction ran or the fetch raised. -/
theorem step_next {s t : State} (h : step s = .next t) :
    atEnd s = false ∧
    ((∃ i u, fetch s = .ok (i, u) ∧ exec i u = .next t) ∨
      (∃ e, fetch s = .error (.raise e) ∧ s.params.hostTraps = false ∧ t = trapEntry e s)) := by
  unfold step stepBy at h
  split at h
  · cases h
  · rename_i ha
    refine ⟨by simpa using ha, ?_⟩
    cases hf : fetch s with
    | error x =>
      rw [hf] at h
      obtain ⟨e, rfl, hh, ht⟩ := stopWith_next h
      exact .inr ⟨e, rfl, hh, ht⟩
    | ok p =>
      rw [hf] at h
      exact .inl ⟨p.1, p.2, rfl, h⟩

end Sys2Proof.Machine
end

