-- ==== Sys2Proof/Laws/Exec.lean ====
section
/-! SUPPORT. What an instruction can do, said once for all 109: `exec_shape` lists the outcomes, and what each leaves of the
state. A statement over all instructions follows from it without opening a meaning. -/

namespace Sys2Proof.Machine

/-- What the writes of an instruction leave alone before pc moves: pc, delay, what is fixed for a run, the storage behind x[0],
every byte but those of one aligned store outside the program text, Cause, BadVAddr, and Status and EPC but for a move to c0,
which runs in Kernel mode. -/
structure WritesOf (i : Instr) (s u : State) : Prop where
  pc : u.pc = s.pc
  delay : u.delay = s.delay
  params : u.params = s.params
  text : u.text = s.text
  zero : s.gpr[0] = 0 → u.gpr[0] = 0
  mem : u.mem = s.mem ∨ ∃ a k v, someByte a k (inText s) = false ∧ a.toNat % k = 0 ∧ (k = 1 ∨ k = 2 ∨ k = 4 ∨ k = 8) ∧
    u.mem = s.mem.storeBytes a (bytesOfValue s.params.endian k v)
  cause : u.cause = s.cause
  badVAddr : u.badVAddr = s.badVAddr
  c0 : writesC0 i = false → u.status = s.status ∧ u.epc = s.epc
  kernel : kernelInstr i = true → mode s = some .kernel

/-- The outcomes of an instruction, with what holds of the instruction and the state where each comes about. -/
inductive ExecShape (i : Instr) (s : State) (r : Result) : Prop
  /-- Refused for a reason of its own. -/
  | refused (q : Refusal) (eq : r = .refused q) (notSlot : q ≠ .controlTransferInDelaySlot) (notWrap : q ≠ .pcWraps)
      (noSlot : controlTransfer i = true → s.delay = none) (stops : ¬ReachesAdvance i s)
  /-- An exception, none of the instruction's writes made. -/
  | raised (e : Exn) (eq : r = raise e s) (cause : HasCause i s e) (noSlot : controlTransfer i = true → s.delay = none)
      (stops : ¬ReachesAdvance i s)
  /-- A sequential instruction. -/
  | sequential (u : State) (writes : WritesOf i s u) (eq : r = advance u) (notTransfer : controlTransfer i = false)
      (reaches : ReachesAdvance i s)
  /-- A control transfer in a delay slot. -/
  | inSlot (eq : r = .refused .controlTransferInDelaySlot) (isTransfer : controlTransfer i = true) (slot : s.delay ≠ none)
  /-- ERET in Kernel mode with ERL = 0. -/
  | returned (eq : r = .next (exceptionReturn s)) (isEret : i = .eret) (noSlot : s.delay = none) (kernel : mode s = some .kernel)
  /-- A jump, after what it writes. -/
  | jumped (u : State) (target : Word) (writes : WritesOf i s u) (eq : r = transfer target u)
      (isTransfer : controlTransfer i = true) (noSlot : s.delay = none) (destination : jumpDestination i s = some target)
      (reaches : ReachesAdvance i s)
  /-- A branch, by whether it is taken. -/
  | branched (taken : Bool) (offset : Imm) (eq : r = branch taken offset s) (isTransfer : controlTransfer i = true)
      (noSlot : s.delay = none) (case : branchCase i s = some (taken, offset)) (reaches : ReachesAdvance i s)

-- Which instructions have a destination

/-- A sequential instruction and ERET are no jump and no branch, and a jump is no branch. -/
theorem jumpDestination_none {i : Instr} {s : State} (h : controlTransfer i = false ∨ i = .eret) : jumpDestination i s = none := by
  rcases h with h | rfl
  · cases i <;> first | rfl | cases h
  · rfl

theorem branchCase_none {i : Instr} {s : State} (h : controlTransfer i = false ∨ i = .eret) : branchCase i s = none := by
  rcases h with h | rfl
  · cases i <;> first | rfl | cases h
  · rfl

theorem branchCase_of_jump {i : Instr} {s : State} {d : Word} (h : jumpDestination i s = some d) : branchCase i s = none := by
  cases i <;> first | rfl | cases h

theorem jumpDestination_of_branch {i : Instr} {s : State} {p : Bool × Imm} (h : branchCase i s = some p) :
    jumpDestination i s = none := by
  cases i <;> first | rfl | cases h

/-- User mode may execute every jump and every branch. -/
theorem kernelInstr_of_jump {i : Instr} {s : State} {d : Word} (h : jumpDestination i s = some d) : kernelInstr i = false := by
  cases i <;> first | rfl | cases h

theorem kernelInstr_of_branch {i : Instr} {s : State} {p : Bool × Imm} (h : branchCase i s = some p) : kernelInstr i = false := by
  cases i <;> first | rfl | cases h

/-- User mode may execute no instruction that writes a c0 register itself. -/
theorem writesC0_of_user {i : Instr} (h : kernelInstr i = false) : writesC0 i = false := by
  cases i <;> first | rfl | cases h

/-- An instruction that User mode may execute leaves the four c0 registers. -/
theorem WritesOf.c0_all {i : Instr} {s u : State} (h : WritesOf i s u) (hk : kernelInstr i = false) :
    u.status = s.status ∧ u.cause = s.cause ∧ u.epc = s.epc ∧ u.badVAddr = s.badVAddr :=
  ⟨(h.c0 (writesC0_of_user hk)).1, h.cause, (h.c0 (writesC0_of_user hk)).2, h.badVAddr⟩

-- What the named operations write

theorem WritesOf.refl {i : Instr} (s : State) (hk : kernelInstr i = false) : WritesOf i s s :=
  ⟨rfl, rfl, rfl, rfl, id, .inl rfl, rfl, rfl, fun _ => ⟨rfl, rfl⟩, by simp [hk]⟩

theorem WritesOf.gpr {i : Instr} (s : State) (r : Reg) (v : Word) (hk : kernelInstr i = false) : WritesOf i s (writeGpr s r v) := by
  refine ⟨by simp, by simp, by simp, by simp, fun h => ?_, .inl (by simp), by simp, by simp, fun _ => by simp, by simp [hk]⟩
  unfold writeGpr
  split
  · exact h
  · rename_i hr
    have : r.toNat ≠ 0 := fun h => hr (BitVec.eq_of_toNat_eq (by simpa using h))
    simp [this, h]

theorem WritesOf.fpr {i : Instr} (s : State) (r : FReg) (v : Word) (hk : kernelInstr i = false) : WritesOf i s (writeFpr s r v) :=
  ⟨rfl, rfl, rfl, rfl, id, .inl rfl, rfl, rfl, fun _ => ⟨rfl, rfl⟩, by simp [hk]⟩

theorem WritesOf.fprLow {i : Instr} (s : State) (r : FReg) (v : BitVec 32) (hk : kernelInstr i = false) :
    WritesOf i s (writeFprLow s r v) :=
  ⟨rfl, rfl, rfl, rfl, id, .inl rfl, rfl, rfl, fun _ => ⟨rfl, rfl⟩, by simp [hk]⟩

theorem WritesOf.fcc {i : Instr} (s : State) (c : Cc) (b : Bool) (hk : kernelInstr i = false) : WritesOf i s (writeFcc s c b) :=
  ⟨rfl, rfl, rfl, rfl, id, .inl rfl, rfl, rfl, fun _ => ⟨rfl, rfl⟩, by simp [hk]⟩

theorem WritesOf.hiLo {i : Instr} (s : State) (h l : Word) (hk : kernelInstr i = false) : WritesOf i s (writeHiLo s h l) :=
  ⟨rfl, rfl, rfl, rfl, id, .inl rfl, rfl, rfl, fun _ => ⟨rfl, rfl⟩, by simp [hk]⟩

theorem WritesOf.hiLoAny {i : Instr} (s : State) (hk : kernelInstr i = false) : WritesOf i s (writeHiLoAny s) :=
  ⟨rfl, rfl, rfl, rfl, id, .inl rfl, rfl, rfl, fun _ => ⟨rfl, rfl⟩, by simp [hk]⟩

/-- Writes after a memory read, which only draws. -/
theorem WritesOf.ofRead {i : Instr} {s u v : State} (hu : u = s ∨ u = drawn s) (h : WritesOf i u v) : WritesOf i s v := by
  rcases hu with rfl | rfl
  · exact h
  · exact ⟨h.pc, h.delay, h.params, h.text, h.zero, h.mem, h.cause, h.badVAddr, h.c0, h.kernel⟩

/-- The writes of a Kernel-mode move: Status or EPC, where it is a move to c0, or a general register. -/
theorem WritesOf.kernelMove {i : Instr} {s w u : State} (hm : mode s = some .kernel)
    (hw : w.pc = s.pc ∧ w.delay = s.delay ∧ w.params = s.params ∧ w.text = s.text ∧ w.gpr = s.gpr ∧ w.mem = s.mem ∧
      w.cause = s.cause ∧ w.badVAddr = s.badVAddr ∧ (writesC0 i = false → w.status = s.status ∧ w.epc = s.epc))
    (h : u = w ∨ ∃ r v, u = writeGpr w r v) : WritesOf i s u := by
  obtain ⟨h1, h2, h3, h4, h5, h6, h7, h8, h9⟩ := hw
  have q : WritesOf .nop w u := by
    rcases h with rfl | ⟨r, v, rfl⟩
    · exact .refl _ rfl
    · exact .gpr _ _ _ rfl
  refine ⟨by rw [q.pc, h1], by rw [q.delay, h2], by rw [q.params, h3], by rw [q.text, h4], by rw [← h5]; exact q.zero, ?_,
    by rw [q.cause, h7], by rw [q.badVAddr, h8], fun hw => ?_, fun _ => hm⟩
  · rcases h with rfl | ⟨r, v, rfl⟩
    · exact .inl h6
    · exact .inl ((writeGpr_mem _ _ _).trans h6)
  · rw [(q.c0 rfl).1, (q.c0 rfl).2]
    exact h9 hw

-- The conditions of `ReachesAdvance` as the meanings test them

theorem readC0_number {s : State} {n : CReg} {p : Word × State} (h : readC0 s n = some p) : C0Number n := by
  rcases readC0_some (v := p.1) (t := p.2) h with ⟨h, -⟩ | ⟨h, -⟩ | ⟨h, -⟩ | ⟨h, -⟩ <;> simp [C0Number, h]

theorem readC0_ne_none {s : State} {n : CReg} (h : C0Number n) : readC0 s n ≠ none := by
  rcases h with rfl | rfl | rfl | rfl <;> simp [readC0]

theorem writeC0_ne_none {s : State} {n : CReg} {v : Word} (h : C0Number n) : writeC0 s n v ≠ none := by
  rcases h with rfl | rfl | rfl | rfl <;> simp [writeC0]

theorem writeC0Low_ne_none {s : State} {n : CReg} {v : BitVec 32} (h : C0Number n) : writeC0Low s n v ≠ none := by
  rcases h with rfl | rfl | rfl | rfl <;> simp [writeC0Low, writeC0]

theorem reaches_load {i : Instr} {s : State} {rs : Reg} {offset : Imm} {k : Nat}
    (hl : loadOperands i = some (rs, offset, k)) (hs : storeOperands i = none) :
    ((∀ rs offset k, loadOperands i = some (rs, offset, k) → AccessOk (addressOf s rs offset) k s) ∧
      ∀ rs offset k, storeOperands i = some (rs, offset, k) →
        AccessOk (addressOf s rs offset) k s ∧ OutsideText (addressOf s rs offset) k s) ↔
      AccessOk (addressOf s rs offset) k s := by
  rw [hl, hs]
  exact ⟨fun h => h.1 _ _ _ rfl, fun h => ⟨fun _ _ _ e => by cases e; exact h, nofun⟩⟩

theorem reaches_store {i : Instr} {s : State} {rs : Reg} {offset : Imm} {k : Nat}
    (hs : storeOperands i = some (rs, offset, k)) (hl : loadOperands i = none) :
    ((∀ rs offset k, loadOperands i = some (rs, offset, k) → AccessOk (addressOf s rs offset) k s) ∧
      ∀ rs offset k, storeOperands i = some (rs, offset, k) →
        AccessOk (addressOf s rs offset) k s ∧ OutsideText (addressOf s rs offset) k s) ↔
      AccessOk (addressOf s rs offset) k s ∧ OutsideText (addressOf s rs offset) k s := by
  rw [hl, hs]
  exact ⟨fun h => h.2 _ _ _ rfl, fun h => ⟨nofun, fun _ _ _ e => by cases e; exact h⟩⟩

theorem atRegionEnd_iff {pc : Word} : atRegionEnd pc = true ↔ pc.extractLsb' 0 28 = 0xFFFFFFC := by
  simp [atRegionEnd]

theorem isSextWord_both {v w : Word} : (isSextWord v && isSextWord w) = true ↔
    v = (v.extractLsb' 0 32).signExtend 64 ∧ w = (w.extractLsb' 0 32).signExtend 64 := by
  have : ∀ x : Word, x.extractLsb' 0 32 = x.setWidth 32 := fun x => by
    apply BitVec.eq_of_getLsbD_eq; simp
  simp [isSextWord, sextLow, this]

-- The shapes of the shared operations

/-- The outcomes of a load, given what `ReachesAdvance` and the operands of the instruction come to. -/
theorem load_shape {i : Instr} {s : State} {rs : Reg} {offset : Imm} {k : Size} {write : State → Word → State}
    (ho : loadOperands i = some (rs, offset, sizeBytes k)) (hc : controlTransfer i = false)
    (hr : ReachesAdvance i s ↔ AccessOk (addressOf s rs offset) (sizeBytes k) s) (hw : ∀ s v, WritesOf i s (write s v)) :
    ExecShape i s (load (addressOf s rs offset) k write s) := by
  unfold load memRead
  simp only
  cases h : checkAccess (addressOf s rs offset) (sizeBytes k) (.addressErrorLoad (addressOf s rs offset))
      (.busErrorData (addressOf s rs offset)) s with
  | ok u => exact .sequential _ (.ofRead (afterRead_cases _ _ _) (hw _ _)) rfl hc (hr.mpr (checkAccess_ok.mp h))
  | error x =>
    have stops : ¬ReachesAdvance i s := fun hn => by rw [checkAccess_ok.mpr (hr.mp hn)] at h; cases h
    rcases checkAccess_error h with ⟨-, rfl⟩ | ⟨-, he, rfl⟩ | ⟨-, ha, -, hb, rfl⟩
    · exact .refused _ rfl nofun nofun (by simp [hc]) stops
    · exact .raised _ rfl ⟨_, _, _, ho, rfl, he⟩ (by simp [hc]) stops
    · exact .raised _ rfl ⟨_, _, _, .inl ho, rfl, ha, hb⟩ (by simp [hc]) stops

/-- The outcomes of a store. -/
theorem store_shape {i : Instr} {s : State} {rs : Reg} {offset : Imm} {k : Size} {v : Word}
    (ho : storeOperands i = some (rs, offset, sizeBytes k)) (hc : controlTransfer i = false) (hk : kernelInstr i = false)
    (hr : ReachesAdvance i s ↔
      AccessOk (addressOf s rs offset) (sizeBytes k) s ∧ OutsideText (addressOf s rs offset) (sizeBytes k) s) :
    ExecShape i s (store (addressOf s rs offset) k v s) := by
  unfold store memWrite
  simp only
  cases h : checkAccess (addressOf s rs offset) (sizeBytes k) (.addressErrorStore (addressOf s rs offset))
      (.busErrorData (addressOf s rs offset)) s with
  | ok u =>
    have hok := checkAccess_ok.mp h
    cases ht : someByte (addressOf s rs offset) (sizeBytes k) (inText s) with
    | true =>
      refine .refused _ rfl nofun nofun (by simp [hc]) fun hn => ?_
      have := (hr.mp hn).2
      simp only [someByte, List.any_eq_true, List.mem_range] at ht
      obtain ⟨j, hj, hb⟩ := ht
      exact absurd hb (by simp [byteAddr, this j hj])
    | false =>
      refine .sequential { s with mem := s.mem.storeBytes _ (bytesOfValue s.params.endian (sizeBytes k) v) }
        ⟨rfl, rfl, rfl, rfl, id, .inr ⟨_, sizeBytes k, v, ht, hok.2.1, by cases k <;> simp [sizeBytes], rfl⟩,
          rfl, rfl, fun _ => ⟨rfl, rfl⟩, by simp [hk]⟩ rfl hc (hr.mpr ⟨hok, fun j hj => ?_⟩)
      simp only [someByte, List.any_eq_false, List.mem_range] at ht
      simpa [byteAddr] using ht j hj
  | error x =>
    have stops : ¬ReachesAdvance i s := fun hn => by rw [checkAccess_ok.mpr (hr.mp hn).1] at h; cases h
    rcases checkAccess_error h with ⟨-, rfl⟩ | ⟨-, he, rfl⟩ | ⟨-, ha, -, hb, rfl⟩
    · exact .refused _ rfl nofun nofun (by simp [hc]) stops
    · exact .raised _ rfl ⟨_, _, _, ho, rfl, he⟩ (by simp [hc]) stops
    · exact .raised _ rfl ⟨_, _, _, .inr ho, rfl, ha, hb⟩ (by simp [hc]) stops

theorem outsideSlot_shape {i : Instr} {s : State} {k : Result} (hc : controlTransfer i = true)
    (h : s.delay = none → ExecShape i s k) : ExecShape i s (outsideSlot s k) := by
  rcases outsideSlot_cases s k with ⟨h1, h2⟩ | ⟨h1, h2⟩
  · exact .inSlot h2 hc h1
  · rw [h2]; exact h h1

theorem branch_shape {i : Instr} {s : State} {taken : Bool} {offset : Imm} (hb : branchCase i s = some (taken, offset))
    (hc : controlTransfer i = true) (hr : ReachesAdvance i s) : ExecShape i s (branch taken offset s) := by
  by_cases hd : s.delay = none
  · exact .branched taken offset rfl hc hd hb hr
  · exact .inSlot (by simp [branch, outsideSlot, Option.isSome_iff_ne_none, hd]) hc hd

theorem kernelOnly_shape {i : Instr} {s : State} {k : Result} (hd : controlTransfer i = true → s.delay = none)
    (hk : kernelInstr i = true) (hr : ReachesAdvance i s → mode s = some .kernel)
    (h : mode s = some .kernel → ExecShape i s k) : ExecShape i s (kernelOnly s k) := by
  rcases kernelOnly_cases s k with ⟨h1, h2⟩ | ⟨h1, h2⟩ | ⟨h1, h2⟩
  · exact .refused _ h2 nofun nofun hd fun hn => by rw [hr hn] at h1; cases h1
  · exact .raised _ h2 ⟨rfl, hk, h1⟩ hd fun hn => by rw [hr hn] at h1; cases h1
  · rw [h2]; exact h h1

-- All instructions

/-- The outcome of every instruction in every state has one of the shapes. -/
theorem exec_shape (i : Instr) (s : State) : ExecShape i s (exec i s) := by
  have seq : ∀ {i s u}, WritesOf i s u → controlTransfer i = false → ReachesAdvance i s → ExecShape i s (advance u) :=
    fun q h hr => .sequential _ q rfl h hr
  have plain : ∀ {P Q : Reg → Imm → Nat → Prop}, (∀ rs offset k, none = some (rs, offset, k) → P rs offset k) ∧
      ∀ rs offset k, none = some (rs, offset, k) → Q rs offset k := fun {_ _} => ⟨nofun, nofun⟩
  cases i
  case mfc0 rd cs =>
    simp only [exec, execMfc0]
    refine kernelOnly_shape nofun rfl (·.1) fun hm => ?_
    cases h : readC0 s cs with
    | none => exact .refused .c0RegisterNotModelled rfl nofun nofun nofun fun hn => readC0_ne_none hn.2 h
    | some p =>
      refine seq (.kernelMove (w := p.2) hm ?_ (.inr ⟨_, _, rfl⟩)) rfl ⟨hm, readC0_number h⟩
      rcases readC0_some h with ⟨-, -, e⟩ | ⟨-, -, e⟩ | ⟨-, -, e⟩ | ⟨-, -, e⟩ <;> simp [e]
  case dmfc0 rd cs =>
    simp only [exec, execDmfc0]
    refine kernelOnly_shape nofun rfl (·.1) fun hm => ?_
    cases h : readC0 s cs with
    | none => exact .refused .c0RegisterNotModelled rfl nofun nofun nofun fun hn => readC0_ne_none hn.2 h
    | some p =>
      refine seq (.kernelMove (w := p.2) hm ?_ (.inr ⟨_, _, rfl⟩)) rfl ⟨hm, readC0_number h⟩
      rcases readC0_some h with ⟨-, -, e⟩ | ⟨-, -, e⟩ | ⟨-, -, e⟩ | ⟨-, -, e⟩ <;> simp [e]
  case mtc0 rs cd =>
    simp only [exec, execMtc0]
    refine kernelOnly_shape nofun rfl (·.1) fun hm => ?_
    cases h : writeC0Low s cd ((readGpr s rs).setWidth 32) with
    | none => exact .refused .c0RegisterNotModelled rfl nofun nofun nofun fun hn => writeC0Low_ne_none hn.2 h
    | some t =>
      refine seq (.kernelMove (w := t) hm ?_ (.inl rfl)) rfl ⟨hm, ?_⟩
      · rcases writeC0Low_some h with ⟨-, rfl⟩ | ⟨-, rfl⟩ | ⟨-, rfl⟩ <;> simp [writesC0]
      · rcases writeC0Low_some h with ⟨h | h, -⟩ | ⟨h, -⟩ | ⟨h, -⟩ <;> simp [C0Number, h]
  case dmtc0 rs cd =>
    simp only [exec, execDmtc0]
    refine kernelOnly_shape nofun rfl (·.1) fun hm => ?_
    cases h : writeC0 s cd (readGpr s rs) with
    | none => exact .refused .c0RegisterNotModelled rfl nofun nofun nofun fun hn => writeC0_ne_none hn.2 h
    | some t =>
      refine seq (.kernelMove (w := t) hm ?_ (.inl rfl)) rfl ⟨hm, ?_⟩
      · rcases writeC0_some h with ⟨-, rfl⟩ | ⟨-, rfl⟩ | ⟨-, rfl⟩ <;> simp [writesC0]
      · rcases writeC0_some h with ⟨h | h, -⟩ | ⟨h, -⟩ | ⟨h, -⟩ <;> simp [C0Number, h]
  case j index =>
    refine outsideSlot_shape rfl fun hd => ?_
    split
    · exact .refused _ rfl nofun nofun (fun _ => hd) fun hn => hn (atRegionEnd_iff.mp ‹_›)
    · exact .jumped _ _ (.refl _ rfl) rfl rfl hd rfl fun hn => ‹¬_› (atRegionEnd_iff.mpr hn)
  case jal index =>
    refine outsideSlot_shape rfl fun hd => ?_
    split
    · exact .refused _ rfl nofun nofun (fun _ => hd) fun hn => hn (atRegionEnd_iff.mp ‹_›)
    · exact .jumped _ _ (.gpr _ _ _ rfl) rfl rfl hd rfl fun hn => ‹¬_› (atRegionEnd_iff.mpr hn)
  case jr rs => exact outsideSlot_shape rfl fun hd => .jumped _ _ (.refl _ rfl) rfl rfl hd rfl plain
  case jalr rs =>
    refine outsideSlot_shape rfl fun hd => ?_
    split
    · exact .refused _ rfl nofun nofun (fun _ => hd) fun hn => hn ‹_›
    · exact .jumped _ _ (.gpr _ _ _ rfl) rfl rfl hd rfl ‹_›
  case trap code => exact .raised _ rfl ⟨code, rfl⟩ nofun id
  case eret =>
    simp only [exec, execEret]
    refine outsideSlot_shape rfl fun hd => kernelOnly_shape (fun _ => hd) rfl False.elim fun hm => ?_
    split
    · exact .refused _ rfl nofun nofun (fun _ => hd) id
    · exact .returned rfl rfl hd hm
  case nop => exact seq (.refl _ rfl) rfl plain
  case movz rd rs rt =>
    simp only [exec, execMovz]
    split <;> first | exact seq (.gpr _ _ _ rfl) rfl plain | exact seq (.refl _ rfl) rfl plain
  case movn rd rs rt =>
    simp only [exec, execMovn]
    split <;> first | exact seq (.gpr _ _ _ rfl) rfl plain | exact seq (.refl _ rfl) rfl plain
  case madd rs rt =>
    simp only [exec, execMadd]
    split
    · rename_i hm
      split
      · rename_i h
        exact seq (.hiLo _ _ _ rfl) rfl fun _ => isSextWord_both.mp h
      · rename_i h
        exact .refused _ rfl nofun nofun nofun fun hn => h (isSextWord_both.mpr (hn hm))
    · rename_i hm
      exact seq (.hiLo _ _ _ rfl) rfl fun h => by rw [h] at hm; cases hm
  case ddiv rs rt =>
    simp only [exec, execDdiv]
    split <;> first | exact seq (.hiLoAny _ rfl) rfl plain | exact seq (.hiLo _ _ _ rfl) rfl plain
  case ddivu rs rt =>
    simp only [exec, execDdivu]
    split <;> first | exact seq (.hiLoAny _ rfl) rfl plain | exact seq (.hiLo _ _ _ rfl) rfl plain
  case lb | lbu | lh | lhu | lw | lwu | ld =>
    exact load_shape rfl rfl (reaches_load rfl rfl) fun _ _ => .gpr _ _ _ rfl
  case lS | lD =>
    exact load_shape rfl rfl (reaches_load rfl rfl) fun _ _ => .fpr _ _ _ rfl
  case sb | sh | sw | sd | sS | sD => exact store_shape rfl rfl rfl (reaches_store rfl rfl)
  case blez | bltz | bgez | bgtz | bc1t | bc1f => exact branch_shape rfl rfl plain
  case beq rs rt offset => exact branch_shape (by simp [branchCase, beq_eq_decide]) rfl plain
  case bne rs rt offset => exact branch_shape (by simp [branchCase, bne, beq_eq_decide]) rfl plain
  case lui | daddu | daddiu | dsubu | mfhi | mflo | mfc1 | dmfc1 | and | or | xor | nor | andi | ori | xori | dsllv |
    dsrlv | dsrav | dsll | dsrl | dsra | slt | sltu | slti | sltiu => exact seq (.gpr _ _ _ rfl) rfl plain
  case dmult | dmultu | mthi | mtlo => exact seq (.hiLo _ _ _ rfl) rfl plain
  case dmtc1 | movD | addD | addPS | subD | subPS | mulD | mulPS | divD | divPS | maddD | maddPS | cvtDS | cvtDW | cvtDL |
    cvtLS | cvtLD => exact seq (.fpr _ _ _ rfl) rfl plain
  case mtc1 | movS | addS | subS | mulS | divS | maddS | cvtSD | cvtSW | cvtSL | cvtWS | cvtWD =>
    exact seq (.fprLow _ _ _ rfl) rfl plain
  case cLtS | cLeS | cGtS | cGeS | cEqS | cNeS | cLtD | cLeD | cGtD | cGeD | cEqD | cNeD => exact seq (.fcc _ _ _ rfl) rfl plain

end Sys2Proof.Machine
end

