-- ==== Sys2Proof/Laws/PerInstr.lean ====
section
/-! SUPPORT. A statement for every instruction: the word it encodes to has the fixed bits of a row of Table 30-2
(spec/30_encoding.md R91, R100). -/

namespace Sys2Proof.Laws

/-- The word of the instruction, where it has one, matches a row of the opcode table. -/
def TableRow.Statement (i : Instr) : Prop := ∀ w, encode i = some w → ∃ r ∈ opcodeRows, r.matches w = true

/-- The bits below cc in a compare word. -/
theorem compareCc_low : ∀ cc : Cc, (cc ++ 0#2) &&& 3#5 = 0#5 := by decide

/-- nd and tf below cc in an FP-branch word. -/
theorem branchCc_low : ∀ (cc : Cc) (tf : BitVec 1), (cc ++ 0#1 ++ tf) &&& 3#5 = 0#4 ++ tf := by decide

/-- The row at a place of the table, and a word under its mask. -/
theorem TableRow.of_place (k : Nat) (w : IWord) (h : opcodeRows[k]?.map (·.matches w) = some true) :
    ∃ r ∈ opcodeRows, r.matches w = true := by
  cases hr : opcodeRows[k]? with
  | none => simp [hr] at h
  | some r => exact ⟨r, List.mem_of_getElem? hr, by simpa [hr] using h⟩

theorem TableRow.lb (rd : Reg) (offset : Imm) (rs : Reg) : TableRow.Statement (.lb rd offset rs) := by
  intro w h; cases h
  refine TableRow.of_place 0 _ (congrArg some ?_)
  change (_ &&& iWord 0b111111#6 0b00000#5 0b00000#5 0x0000#16 == iWord 0b100000#6 0b00000#5 0b00000#5 0x0000#16) = true
  simp [iWord_and]

theorem TableRow.lbu (rd : Reg) (offset : Imm) (rs : Reg) : TableRow.Statement (.lbu rd offset rs) := by
  intro w h; cases h
  refine TableRow.of_place 1 _ (congrArg some ?_)
  change (_ &&& iWord 0b111111#6 0b00000#5 0b00000#5 0x0000#16 == iWord 0b100100#6 0b00000#5 0b00000#5 0x0000#16) = true
  simp [iWord_and]

theorem TableRow.lh (rd : Reg) (offset : Imm) (rs : Reg) : TableRow.Statement (.lh rd offset rs) := by
  intro w h; cases h
  refine TableRow.of_place 2 _ (congrArg some ?_)
  change (_ &&& iWord 0b111111#6 0b00000#5 0b00000#5 0x0000#16 == iWord 0b100001#6 0b00000#5 0b00000#5 0x0000#16) = true
  simp [iWord_and]

theorem TableRow.lhu (rd : Reg) (offset : Imm) (rs : Reg) : TableRow.Statement (.lhu rd offset rs) := by
  intro w h; cases h
  refine TableRow.of_place 3 _ (congrArg some ?_)
  change (_ &&& iWord 0b111111#6 0b00000#5 0b00000#5 0x0000#16 == iWord 0b100101#6 0b00000#5 0b00000#5 0x0000#16) = true
  simp [iWord_and]

theorem TableRow.lw (rd : Reg) (offset : Imm) (rs : Reg) : TableRow.Statement (.lw rd offset rs) := by
  intro w h; cases h
  refine TableRow.of_place 4 _ (congrArg some ?_)
  change (_ &&& iWord 0b111111#6 0b00000#5 0b00000#5 0x0000#16 == iWord 0b100011#6 0b00000#5 0b00000#5 0x0000#16) = true
  simp [iWord_and]

theorem TableRow.lwu (rd : Reg) (offset : Imm) (rs : Reg) : TableRow.Statement (.lwu rd offset rs) := by
  intro w h; cases h
  refine TableRow.of_place 5 _ (congrArg some ?_)
  change (_ &&& iWord 0b111111#6 0b00000#5 0b00000#5 0x0000#16 == iWord 0b100111#6 0b00000#5 0b00000#5 0x0000#16) = true
  simp [iWord_and]

theorem TableRow.ld (rd : Reg) (offset : Imm) (rs : Reg) : TableRow.Statement (.ld rd offset rs) := by
  intro w h; cases h
  refine TableRow.of_place 6 _ (congrArg some ?_)
  change (_ &&& iWord 0b111111#6 0b00000#5 0b00000#5 0x0000#16 == iWord 0b110111#6 0b00000#5 0b00000#5 0x0000#16) = true
  simp [iWord_and]

theorem TableRow.sb (rt : Reg) (offset : Imm) (rs : Reg) : TableRow.Statement (.sb rt offset rs) := by
  intro w h; cases h
  refine TableRow.of_place 7 _ (congrArg some ?_)
  change (_ &&& iWord 0b111111#6 0b00000#5 0b00000#5 0x0000#16 == iWord 0b101000#6 0b00000#5 0b00000#5 0x0000#16) = true
  simp [iWord_and]

theorem TableRow.sh (rt : Reg) (offset : Imm) (rs : Reg) : TableRow.Statement (.sh rt offset rs) := by
  intro w h; cases h
  refine TableRow.of_place 8 _ (congrArg some ?_)
  change (_ &&& iWord 0b111111#6 0b00000#5 0b00000#5 0x0000#16 == iWord 0b101001#6 0b00000#5 0b00000#5 0x0000#16) = true
  simp [iWord_and]

theorem TableRow.sw (rt : Reg) (offset : Imm) (rs : Reg) : TableRow.Statement (.sw rt offset rs) := by
  intro w h; cases h
  refine TableRow.of_place 9 _ (congrArg some ?_)
  change (_ &&& iWord 0b111111#6 0b00000#5 0b00000#5 0x0000#16 == iWord 0b101011#6 0b00000#5 0b00000#5 0x0000#16) = true
  simp [iWord_and]

theorem TableRow.sd (rt : Reg) (offset : Imm) (rs : Reg) : TableRow.Statement (.sd rt offset rs) := by
  intro w h; cases h
  refine TableRow.of_place 10 _ (congrArg some ?_)
  change (_ &&& iWord 0b111111#6 0b00000#5 0b00000#5 0x0000#16 == iWord 0b111111#6 0b00000#5 0b00000#5 0x0000#16) = true
  simp [iWord_and]

theorem TableRow.lS (fd : FReg) (offset : Imm) (rs : Reg) : TableRow.Statement (.lS fd offset rs) := by
  intro w h; cases h
  refine TableRow.of_place 11 _ (congrArg some ?_)
  change (_ &&& iWord 0b111111#6 0b00000#5 0b00000#5 0x0000#16 == iWord 0b110001#6 0b00000#5 0b00000#5 0x0000#16) = true
  simp [iWord_and]

theorem TableRow.lD (fd : FReg) (offset : Imm) (rs : Reg) : TableRow.Statement (.lD fd offset rs) := by
  intro w h; cases h
  refine TableRow.of_place 12 _ (congrArg some ?_)
  change (_ &&& iWord 0b111111#6 0b00000#5 0b00000#5 0x0000#16 == iWord 0b110101#6 0b00000#5 0b00000#5 0x0000#16) = true
  simp [iWord_and]

theorem TableRow.lui (rd : Reg) (imm : Imm) : TableRow.Statement (.lui rd imm) := by
  intro w h; cases h
  refine TableRow.of_place 13 _ (congrArg some ?_)
  change (_ &&& iWord 0b111111#6 0b11111#5 0b00000#5 0x0000#16 == iWord 0b001111#6 0b00000#5 0b00000#5 0x0000#16) = true
  simp [iWord_and]

theorem TableRow.sS (ft : FReg) (offset : Imm) (rs : Reg) : TableRow.Statement (.sS ft offset rs) := by
  intro w h; cases h
  refine TableRow.of_place 14 _ (congrArg some ?_)
  change (_ &&& iWord 0b111111#6 0b00000#5 0b00000#5 0x0000#16 == iWord 0b111001#6 0b00000#5 0b00000#5 0x0000#16) = true
  simp [iWord_and]

theorem TableRow.sD (ft : FReg) (offset : Imm) (rs : Reg) : TableRow.Statement (.sD ft offset rs) := by
  intro w h; cases h
  refine TableRow.of_place 15 _ (congrArg some ?_)
  change (_ &&& iWord 0b111111#6 0b00000#5 0b00000#5 0x0000#16 == iWord 0b111101#6 0b00000#5 0b00000#5 0x0000#16) = true
  simp [iWord_and]

theorem TableRow.daddu (rd : Reg) (rs : Reg) (rt : Reg) : TableRow.Statement (.daddu rd rs rt) := by
  intro w h; cases h
  refine TableRow.of_place 16 _ (congrArg some ?_)
  change (_ &&& rWord 0b111111#6 0b00000#5 0b00000#5 0b00000#5 0b11111#5 0b111111#6 == rWord 0b000000#6 0b00000#5 0b00000#5 0b00000#5 0b00000#5 0b101101#6) = true
  simp [rWord_and]

theorem TableRow.daddiu (rd : Reg) (rs : Reg) (imm : Imm) : TableRow.Statement (.daddiu rd rs imm) := by
  intro w h; cases h
  refine TableRow.of_place 17 _ (congrArg some ?_)
  change (_ &&& iWord 0b111111#6 0b00000#5 0b00000#5 0x0000#16 == iWord 0b011001#6 0b00000#5 0b00000#5 0x0000#16) = true
  simp [iWord_and]

theorem TableRow.dsubu (rd : Reg) (rs : Reg) (rt : Reg) : TableRow.Statement (.dsubu rd rs rt) := by
  intro w h; cases h
  refine TableRow.of_place 18 _ (congrArg some ?_)
  change (_ &&& rWord 0b111111#6 0b00000#5 0b00000#5 0b00000#5 0b11111#5 0b111111#6 == rWord 0b000000#6 0b00000#5 0b00000#5 0b00000#5 0b00000#5 0b101111#6) = true
  simp [rWord_and]

theorem TableRow.dmult (rs : Reg) (rt : Reg) : TableRow.Statement (.dmult rs rt) := by
  intro w h; cases h
  refine TableRow.of_place 19 _ (congrArg some ?_)
  change (_ &&& rWord 0b111111#6 0b00000#5 0b00000#5 0b11111#5 0b11111#5 0b111111#6 == rWord 0b000000#6 0b00000#5 0b00000#5 0b00000#5 0b00000#5 0b011100#6) = true
  simp [rWord_and]

theorem TableRow.dmultu (rs : Reg) (rt : Reg) : TableRow.Statement (.dmultu rs rt) := by
  intro w h; cases h
  refine TableRow.of_place 20 _ (congrArg some ?_)
  change (_ &&& rWord 0b111111#6 0b00000#5 0b00000#5 0b11111#5 0b11111#5 0b111111#6 == rWord 0b000000#6 0b00000#5 0b00000#5 0b00000#5 0b00000#5 0b011101#6) = true
  simp [rWord_and]

theorem TableRow.ddiv (rs : Reg) (rt : Reg) : TableRow.Statement (.ddiv rs rt) := by
  intro w h; cases h
  refine TableRow.of_place 21 _ (congrArg some ?_)
  change (_ &&& rWord 0b111111#6 0b00000#5 0b00000#5 0b11111#5 0b11111#5 0b111111#6 == rWord 0b000000#6 0b00000#5 0b00000#5 0b00000#5 0b00000#5 0b011110#6) = true
  simp [rWord_and]

theorem TableRow.ddivu (rs : Reg) (rt : Reg) : TableRow.Statement (.ddivu rs rt) := by
  intro w h; cases h
  refine TableRow.of_place 22 _ (congrArg some ?_)
  change (_ &&& rWord 0b111111#6 0b00000#5 0b00000#5 0b11111#5 0b11111#5 0b111111#6 == rWord 0b000000#6 0b00000#5 0b00000#5 0b00000#5 0b00000#5 0b011111#6) = true
  simp [rWord_and]

theorem TableRow.madd (rs : Reg) (rt : Reg) : TableRow.Statement (.madd rs rt) := by
  intro w h; cases h
  refine TableRow.of_place 23 _ (congrArg some ?_)
  change (_ &&& rWord 0b111111#6 0b00000#5 0b00000#5 0b11111#5 0b11111#5 0b111111#6 == rWord 0b011100#6 0b00000#5 0b00000#5 0b00000#5 0b00000#5 0b000000#6) = true
  simp [rWord_and]

theorem TableRow.mfhi (rd : Reg) : TableRow.Statement (.mfhi rd) := by
  intro w h; cases h
  refine TableRow.of_place 24 _ (congrArg some ?_)
  change (_ &&& rWord 0b111111#6 0b11111#5 0b11111#5 0b00000#5 0b11111#5 0b111111#6 == rWord 0b000000#6 0b00000#5 0b00000#5 0b00000#5 0b00000#5 0b010000#6) = true
  simp [rWord_and]

theorem TableRow.mflo (rd : Reg) : TableRow.Statement (.mflo rd) := by
  intro w h; cases h
  refine TableRow.of_place 25 _ (congrArg some ?_)
  change (_ &&& rWord 0b111111#6 0b11111#5 0b11111#5 0b00000#5 0b11111#5 0b111111#6 == rWord 0b000000#6 0b00000#5 0b00000#5 0b00000#5 0b00000#5 0b010010#6) = true
  simp [rWord_and]

theorem TableRow.mthi (rs : Reg) : TableRow.Statement (.mthi rs) := by
  intro w h; cases h
  refine TableRow.of_place 26 _ (congrArg some ?_)
  change (_ &&& rWord 0b111111#6 0b00000#5 0b11111#5 0b11111#5 0b11111#5 0b111111#6 == rWord 0b000000#6 0b00000#5 0b00000#5 0b00000#5 0b00000#5 0b010001#6) = true
  simp [rWord_and]

theorem TableRow.mtlo (rs : Reg) : TableRow.Statement (.mtlo rs) := by
  intro w h; cases h
  refine TableRow.of_place 27 _ (congrArg some ?_)
  change (_ &&& rWord 0b111111#6 0b00000#5 0b11111#5 0b11111#5 0b11111#5 0b111111#6 == rWord 0b000000#6 0b00000#5 0b00000#5 0b00000#5 0b00000#5 0b010011#6) = true
  simp [rWord_and]

theorem TableRow.mfc0 (rd : Reg) (cs : CReg) : TableRow.Statement (.mfc0 rd cs) := by
  intro w h; cases h
  refine TableRow.of_place 28 _ (congrArg some ?_)
  change (_ &&& rWord 0b111111#6 0b11111#5 0b00000#5 0b00000#5 0b11111#5 0b111111#6 == rWord 0b010000#6 0b00000#5 0b00000#5 0b00000#5 0b00000#5 0b000000#6) = true
  simp [rWord_and]

theorem TableRow.mtc0 (rs : Reg) (cd : CReg) : TableRow.Statement (.mtc0 rs cd) := by
  intro w h; cases h
  refine TableRow.of_place 29 _ (congrArg some ?_)
  change (_ &&& rWord 0b111111#6 0b11111#5 0b00000#5 0b00000#5 0b11111#5 0b111111#6 == rWord 0b010000#6 0b00100#5 0b00000#5 0b00000#5 0b00000#5 0b000000#6) = true
  simp [rWord_and]

theorem TableRow.dmfc0 (rd : Reg) (cs : CReg) : TableRow.Statement (.dmfc0 rd cs) := by
  intro w h; cases h
  refine TableRow.of_place 30 _ (congrArg some ?_)
  change (_ &&& rWord 0b111111#6 0b11111#5 0b00000#5 0b00000#5 0b11111#5 0b111111#6 == rWord 0b010000#6 0b00001#5 0b00000#5 0b00000#5 0b00000#5 0b000000#6) = true
  simp [rWord_and]

theorem TableRow.dmtc0 (rs : Reg) (cd : CReg) : TableRow.Statement (.dmtc0 rs cd) := by
  intro w h; cases h
  refine TableRow.of_place 31 _ (congrArg some ?_)
  change (_ &&& rWord 0b111111#6 0b11111#5 0b00000#5 0b00000#5 0b11111#5 0b111111#6 == rWord 0b010000#6 0b00101#5 0b00000#5 0b00000#5 0b00000#5 0b000000#6) = true
  simp [rWord_and]

theorem TableRow.mfc1 (rd : Reg) (fs : FReg) : TableRow.Statement (.mfc1 rd fs) := by
  intro w h; cases h
  refine TableRow.of_place 32 _ (congrArg some ?_)
  change (_ &&& rWord 0b111111#6 0b11111#5 0b00000#5 0b00000#5 0b11111#5 0b111111#6 == rWord 0b010001#6 0b00000#5 0b00000#5 0b00000#5 0b00000#5 0b000000#6) = true
  simp [rWord_and]

theorem TableRow.mtc1 (rs : Reg) (fd : FReg) : TableRow.Statement (.mtc1 rs fd) := by
  intro w h; cases h
  refine TableRow.of_place 33 _ (congrArg some ?_)
  change (_ &&& rWord 0b111111#6 0b11111#5 0b00000#5 0b00000#5 0b11111#5 0b111111#6 == rWord 0b010001#6 0b00100#5 0b00000#5 0b00000#5 0b00000#5 0b000000#6) = true
  simp [rWord_and]

theorem TableRow.dmfc1 (rd : Reg) (fs : FReg) : TableRow.Statement (.dmfc1 rd fs) := by
  intro w h; cases h
  refine TableRow.of_place 34 _ (congrArg some ?_)
  change (_ &&& rWord 0b111111#6 0b11111#5 0b00000#5 0b00000#5 0b11111#5 0b111111#6 == rWord 0b010001#6 0b00001#5 0b00000#5 0b00000#5 0b00000#5 0b000000#6) = true
  simp [rWord_and]

theorem TableRow.dmtc1 (rs : Reg) (fd : FReg) : TableRow.Statement (.dmtc1 rs fd) := by
  intro w h; cases h
  refine TableRow.of_place 35 _ (congrArg some ?_)
  change (_ &&& rWord 0b111111#6 0b11111#5 0b00000#5 0b00000#5 0b11111#5 0b111111#6 == rWord 0b010001#6 0b00101#5 0b00000#5 0b00000#5 0b00000#5 0b000000#6) = true
  simp [rWord_and]

theorem TableRow.movS (fd : FReg) (fs : FReg) : TableRow.Statement (.movS fd fs) := by
  intro w h; cases h
  refine TableRow.of_place 36 _ (congrArg some ?_)
  change (_ &&& rWord 0b111111#6 0b11111#5 0b11111#5 0b00000#5 0b00000#5 0b111111#6 == rWord 0b010001#6 0b10000#5 0b00000#5 0b00000#5 0b00000#5 0b000110#6) = true
  simp [rWord_and]

theorem TableRow.movD (fd : FReg) (fs : FReg) : TableRow.Statement (.movD fd fs) := by
  intro w h; cases h
  refine TableRow.of_place 37 _ (congrArg some ?_)
  change (_ &&& rWord 0b111111#6 0b11111#5 0b11111#5 0b00000#5 0b00000#5 0b111111#6 == rWord 0b010001#6 0b10001#5 0b00000#5 0b00000#5 0b00000#5 0b000110#6) = true
  simp [rWord_and]

theorem TableRow.and (rd : Reg) (rs : Reg) (rt : Reg) : TableRow.Statement (.and rd rs rt) := by
  intro w h; cases h
  refine TableRow.of_place 38 _ (congrArg some ?_)
  change (_ &&& rWord 0b111111#6 0b00000#5 0b00000#5 0b00000#5 0b11111#5 0b111111#6 == rWord 0b000000#6 0b00000#5 0b00000#5 0b00000#5 0b00000#5 0b100100#6) = true
  simp [rWord_and]

theorem TableRow.or (rd : Reg) (rs : Reg) (rt : Reg) : TableRow.Statement (.or rd rs rt) := by
  intro w h; cases h
  refine TableRow.of_place 39 _ (congrArg some ?_)
  change (_ &&& rWord 0b111111#6 0b00000#5 0b00000#5 0b00000#5 0b11111#5 0b111111#6 == rWord 0b000000#6 0b00000#5 0b00000#5 0b00000#5 0b00000#5 0b100101#6) = true
  simp [rWord_and]

theorem TableRow.xor (rd : Reg) (rs : Reg) (rt : Reg) : TableRow.Statement (.xor rd rs rt) := by
  intro w h; cases h
  refine TableRow.of_place 40 _ (congrArg some ?_)
  change (_ &&& rWord 0b111111#6 0b00000#5 0b00000#5 0b00000#5 0b11111#5 0b111111#6 == rWord 0b000000#6 0b00000#5 0b00000#5 0b00000#5 0b00000#5 0b100110#6) = true
  simp [rWord_and]

theorem TableRow.nor (rd : Reg) (rs : Reg) (rt : Reg) : TableRow.Statement (.nor rd rs rt) := by
  intro w h; cases h
  refine TableRow.of_place 41 _ (congrArg some ?_)
  change (_ &&& rWord 0b111111#6 0b00000#5 0b00000#5 0b00000#5 0b11111#5 0b111111#6 == rWord 0b000000#6 0b00000#5 0b00000#5 0b00000#5 0b00000#5 0b100111#6) = true
  simp [rWord_and]

theorem TableRow.andi (rd : Reg) (rs : Reg) (imm : Imm) : TableRow.Statement (.andi rd rs imm) := by
  intro w h; cases h
  refine TableRow.of_place 42 _ (congrArg some ?_)
  change (_ &&& iWord 0b111111#6 0b00000#5 0b00000#5 0x0000#16 == iWord 0b001100#6 0b00000#5 0b00000#5 0x0000#16) = true
  simp [iWord_and]

theorem TableRow.ori (rd : Reg) (rs : Reg) (imm : Imm) : TableRow.Statement (.ori rd rs imm) := by
  intro w h; cases h
  refine TableRow.of_place 43 _ (congrArg some ?_)
  change (_ &&& iWord 0b111111#6 0b00000#5 0b00000#5 0x0000#16 == iWord 0b001101#6 0b00000#5 0b00000#5 0x0000#16) = true
  simp [iWord_and]

theorem TableRow.xori (rd : Reg) (rs : Reg) (imm : Imm) : TableRow.Statement (.xori rd rs imm) := by
  intro w h; cases h
  refine TableRow.of_place 44 _ (congrArg some ?_)
  change (_ &&& iWord 0b111111#6 0b00000#5 0b00000#5 0x0000#16 == iWord 0b001110#6 0b00000#5 0b00000#5 0x0000#16) = true
  simp [iWord_and]

theorem TableRow.dsllv (rd : Reg) (rs : Reg) (rt : Reg) : TableRow.Statement (.dsllv rd rs rt) := by
  intro w h; cases h
  refine TableRow.of_place 45 _ (congrArg some ?_)
  change (_ &&& rWord 0b111111#6 0b00000#5 0b00000#5 0b00000#5 0b11111#5 0b111111#6 == rWord 0b000000#6 0b00000#5 0b00000#5 0b00000#5 0b00000#5 0b010100#6) = true
  simp [rWord_and]

theorem TableRow.dsrlv (rd : Reg) (rs : Reg) (rt : Reg) : TableRow.Statement (.dsrlv rd rs rt) := by
  intro w h; cases h
  refine TableRow.of_place 46 _ (congrArg some ?_)
  change (_ &&& rWord 0b111111#6 0b00000#5 0b00000#5 0b00000#5 0b11111#5 0b111111#6 == rWord 0b000000#6 0b00000#5 0b00000#5 0b00000#5 0b00000#5 0b010110#6) = true
  simp [rWord_and]

theorem TableRow.dsrav (rd : Reg) (rs : Reg) (rt : Reg) : TableRow.Statement (.dsrav rd rs rt) := by
  intro w h; cases h
  refine TableRow.of_place 47 _ (congrArg some ?_)
  change (_ &&& rWord 0b111111#6 0b00000#5 0b00000#5 0b00000#5 0b11111#5 0b111111#6 == rWord 0b000000#6 0b00000#5 0b00000#5 0b00000#5 0b00000#5 0b010111#6) = true
  simp [rWord_and]

theorem TableRow.dsll (rd : Reg) (rs : Reg) (sa : Shamt) : TableRow.Statement (.dsll rd rs sa) := by
  intro w h; cases h
  refine TableRow.of_place 48 _ (congrArg some ?_)
  change (_ &&& rWord 0b111111#6 0b11111#5 0b00000#5 0b00000#5 0b00000#5 0b111111#6 == rWord 0b000000#6 0b00000#5 0b00000#5 0b00000#5 0b00000#5 0b111000#6) = true
  simp [rWord_and]

theorem TableRow.dsrl (rd : Reg) (rs : Reg) (sa : Shamt) : TableRow.Statement (.dsrl rd rs sa) := by
  intro w h; cases h
  refine TableRow.of_place 49 _ (congrArg some ?_)
  change (_ &&& rWord 0b111111#6 0b11111#5 0b00000#5 0b00000#5 0b00000#5 0b111111#6 == rWord 0b000000#6 0b00000#5 0b00000#5 0b00000#5 0b00000#5 0b111010#6) = true
  simp [rWord_and]

theorem TableRow.dsra (rd : Reg) (rs : Reg) (sa : Shamt) : TableRow.Statement (.dsra rd rs sa) := by
  intro w h; cases h
  refine TableRow.of_place 50 _ (congrArg some ?_)
  change (_ &&& rWord 0b111111#6 0b11111#5 0b00000#5 0b00000#5 0b00000#5 0b111111#6 == rWord 0b000000#6 0b00000#5 0b00000#5 0b00000#5 0b00000#5 0b111011#6) = true
  simp [rWord_and]

theorem TableRow.j (index : JField) : TableRow.Statement (.j index) := by
  intro w h; cases h
  refine TableRow.of_place 51 _ (congrArg some ?_)
  change (_ &&& jWord 0b111111#6 0x0000000#26 == jWord 0b000010#6 0x0000000#26) = true
  simp [jWord_and]

theorem TableRow.jr (rs : Reg) : TableRow.Statement (.jr rs) := by
  intro w h; cases h
  refine TableRow.of_place 52 _ (congrArg some ?_)
  change (_ &&& rWord 0b111111#6 0b00000#5 0b11111#5 0b11111#5 0b11111#5 0b111111#6 == rWord 0b000000#6 0b00000#5 0b00000#5 0b00000#5 0b00000#5 0b001000#6) = true
  simp [rWord_and]

theorem TableRow.jal (index : JField) : TableRow.Statement (.jal index) := by
  intro w h; cases h
  refine TableRow.of_place 53 _ (congrArg some ?_)
  change (_ &&& jWord 0b111111#6 0x0000000#26 == jWord 0b000011#6 0x0000000#26) = true
  simp [jWord_and]

theorem TableRow.jalr (rs : Reg) : TableRow.Statement (.jalr rs) := by
  intro w h; cases h
  refine TableRow.of_place 54 _ (congrArg some ?_)
  change (_ &&& rWord 0b111111#6 0b00000#5 0b11111#5 0b11111#5 0b11111#5 0b111111#6 == rWord 0b000000#6 0b00000#5 0b00000#5 0b11111#5 0b00000#5 0b001001#6) = true
  simp [rWord_and]

theorem TableRow.blez (rs : Reg) (offset : Imm) : TableRow.Statement (.blez rs offset) := by
  intro w h; cases h
  refine TableRow.of_place 55 _ (congrArg some ?_)
  change (_ &&& iWord 0b111111#6 0b00000#5 0b11111#5 0x0000#16 == iWord 0b000110#6 0b00000#5 0b00000#5 0x0000#16) = true
  simp [iWord_and]

theorem TableRow.bltz (rs : Reg) (offset : Imm) : TableRow.Statement (.bltz rs offset) := by
  intro w h; cases h
  refine TableRow.of_place 56 _ (congrArg some ?_)
  change (_ &&& iWord 0b111111#6 0b00000#5 0b11111#5 0x0000#16 == iWord 0b000001#6 0b00000#5 0b00000#5 0x0000#16) = true
  simp [iWord_and]

theorem TableRow.bgez (rs : Reg) (offset : Imm) : TableRow.Statement (.bgez rs offset) := by
  intro w h; cases h
  refine TableRow.of_place 57 _ (congrArg some ?_)
  change (_ &&& iWord 0b111111#6 0b00000#5 0b11111#5 0x0000#16 == iWord 0b000001#6 0b00000#5 0b00001#5 0x0000#16) = true
  simp [iWord_and]

theorem TableRow.bgtz (rs : Reg) (offset : Imm) : TableRow.Statement (.bgtz rs offset) := by
  intro w h; cases h
  refine TableRow.of_place 58 _ (congrArg some ?_)
  change (_ &&& iWord 0b111111#6 0b00000#5 0b11111#5 0x0000#16 == iWord 0b000111#6 0b00000#5 0b00000#5 0x0000#16) = true
  simp [iWord_and]

theorem TableRow.beq (rs : Reg) (rt : Reg) (offset : Imm) : TableRow.Statement (.beq rs rt offset) := by
  intro w h; cases h
  refine TableRow.of_place 59 _ (congrArg some ?_)
  change (_ &&& iWord 0b111111#6 0b00000#5 0b00000#5 0x0000#16 == iWord 0b000100#6 0b00000#5 0b00000#5 0x0000#16) = true
  simp [iWord_and]

theorem TableRow.bne (rs : Reg) (rt : Reg) (offset : Imm) : TableRow.Statement (.bne rs rt offset) := by
  intro w h; cases h
  refine TableRow.of_place 60 _ (congrArg some ?_)
  change (_ &&& iWord 0b111111#6 0b00000#5 0b00000#5 0x0000#16 == iWord 0b000101#6 0b00000#5 0b00000#5 0x0000#16) = true
  simp [iWord_and]

theorem TableRow.movz (rd : Reg) (rs : Reg) (rt : Reg) : TableRow.Statement (.movz rd rs rt) := by
  intro w h; cases h
  refine TableRow.of_place 61 _ (congrArg some ?_)
  change (_ &&& rWord 0b111111#6 0b00000#5 0b00000#5 0b00000#5 0b11111#5 0b111111#6 == rWord 0b000000#6 0b00000#5 0b00000#5 0b00000#5 0b00000#5 0b001010#6) = true
  simp [rWord_and]

theorem TableRow.movn (rd : Reg) (rs : Reg) (rt : Reg) : TableRow.Statement (.movn rd rs rt) := by
  intro w h; cases h
  refine TableRow.of_place 62 _ (congrArg some ?_)
  change (_ &&& rWord 0b111111#6 0b00000#5 0b00000#5 0b00000#5 0b11111#5 0b111111#6 == rWord 0b000000#6 0b00000#5 0b00000#5 0b00000#5 0b00000#5 0b001011#6) = true
  simp [rWord_and]

theorem TableRow.slt (rd : Reg) (rs : Reg) (rt : Reg) : TableRow.Statement (.slt rd rs rt) := by
  intro w h; cases h
  refine TableRow.of_place 63 _ (congrArg some ?_)
  change (_ &&& rWord 0b111111#6 0b00000#5 0b00000#5 0b00000#5 0b11111#5 0b111111#6 == rWord 0b000000#6 0b00000#5 0b00000#5 0b00000#5 0b00000#5 0b101010#6) = true
  simp [rWord_and]

theorem TableRow.sltu (rd : Reg) (rs : Reg) (rt : Reg) : TableRow.Statement (.sltu rd rs rt) := by
  intro w h; cases h
  refine TableRow.of_place 64 _ (congrArg some ?_)
  change (_ &&& rWord 0b111111#6 0b00000#5 0b00000#5 0b00000#5 0b11111#5 0b111111#6 == rWord 0b000000#6 0b00000#5 0b00000#5 0b00000#5 0b00000#5 0b101011#6) = true
  simp [rWord_and]

theorem TableRow.slti (rd : Reg) (rs : Reg) (imm : Imm) : TableRow.Statement (.slti rd rs imm) := by
  intro w h; cases h
  refine TableRow.of_place 65 _ (congrArg some ?_)
  change (_ &&& iWord 0b111111#6 0b00000#5 0b00000#5 0x0000#16 == iWord 0b001010#6 0b00000#5 0b00000#5 0x0000#16) = true
  simp [iWord_and]

theorem TableRow.sltiu (rd : Reg) (rs : Reg) (imm : Imm) : TableRow.Statement (.sltiu rd rs imm) := by
  intro w h; cases h
  refine TableRow.of_place 66 _ (congrArg some ?_)
  change (_ &&& iWord 0b111111#6 0b00000#5 0b00000#5 0x0000#16 == iWord 0b001011#6 0b00000#5 0b00000#5 0x0000#16) = true
  simp [iWord_and]

theorem TableRow.addD (fd : FReg) (fs : FReg) (ft : FReg) : TableRow.Statement (.addD fd fs ft) := by
  intro w h; cases h
  refine TableRow.of_place 67 _ (congrArg some ?_)
  change (_ &&& rWord 0b111111#6 0b11111#5 0b00000#5 0b00000#5 0b00000#5 0b111111#6 == rWord 0b010001#6 0b10001#5 0b00000#5 0b00000#5 0b00000#5 0b000000#6) = true
  simp [rWord_and]

theorem TableRow.addS (fd : FReg) (fs : FReg) (ft : FReg) : TableRow.Statement (.addS fd fs ft) := by
  intro w h; cases h
  refine TableRow.of_place 68 _ (congrArg some ?_)
  change (_ &&& rWord 0b111111#6 0b11111#5 0b00000#5 0b00000#5 0b00000#5 0b111111#6 == rWord 0b010001#6 0b10000#5 0b00000#5 0b00000#5 0b00000#5 0b000000#6) = true
  simp [rWord_and]

theorem TableRow.addPS (fd : FReg) (fs : FReg) (ft : FReg) : TableRow.Statement (.addPS fd fs ft) := by
  intro w h; cases h
  refine TableRow.of_place 69 _ (congrArg some ?_)
  change (_ &&& rWord 0b111111#6 0b11111#5 0b00000#5 0b00000#5 0b00000#5 0b111111#6 == rWord 0b010001#6 0b10110#5 0b00000#5 0b00000#5 0b00000#5 0b000000#6) = true
  simp [rWord_and]

theorem TableRow.subD (fd : FReg) (fs : FReg) (ft : FReg) : TableRow.Statement (.subD fd fs ft) := by
  intro w h; cases h
  refine TableRow.of_place 70 _ (congrArg some ?_)
  change (_ &&& rWord 0b111111#6 0b11111#5 0b00000#5 0b00000#5 0b00000#5 0b111111#6 == rWord 0b010001#6 0b10001#5 0b00000#5 0b00000#5 0b00000#5 0b000001#6) = true
  simp [rWord_and]

theorem TableRow.subS (fd : FReg) (fs : FReg) (ft : FReg) : TableRow.Statement (.subS fd fs ft) := by
  intro w h; cases h
  refine TableRow.of_place 71 _ (congrArg some ?_)
  change (_ &&& rWord 0b111111#6 0b11111#5 0b00000#5 0b00000#5 0b00000#5 0b111111#6 == rWord 0b010001#6 0b10000#5 0b00000#5 0b00000#5 0b00000#5 0b000001#6) = true
  simp [rWord_and]

theorem TableRow.subPS (fd : FReg) (fs : FReg) (ft : FReg) : TableRow.Statement (.subPS fd fs ft) := by
  intro w h; cases h
  refine TableRow.of_place 72 _ (congrArg some ?_)
  change (_ &&& rWord 0b111111#6 0b11111#5 0b00000#5 0b00000#5 0b00000#5 0b111111#6 == rWord 0b010001#6 0b10110#5 0b00000#5 0b00000#5 0b00000#5 0b000001#6) = true
  simp [rWord_and]

theorem TableRow.mulD (fd : FReg) (fs : FReg) (ft : FReg) : TableRow.Statement (.mulD fd fs ft) := by
  intro w h; cases h
  refine TableRow.of_place 73 _ (congrArg some ?_)
  change (_ &&& rWord 0b111111#6 0b11111#5 0b00000#5 0b00000#5 0b00000#5 0b111111#6 == rWord 0b010001#6 0b10001#5 0b00000#5 0b00000#5 0b00000#5 0b000010#6) = true
  simp [rWord_and]

theorem TableRow.mulS (fd : FReg) (fs : FReg) (ft : FReg) : TableRow.Statement (.mulS fd fs ft) := by
  intro w h; cases h
  refine TableRow.of_place 74 _ (congrArg some ?_)
  change (_ &&& rWord 0b111111#6 0b11111#5 0b00000#5 0b00000#5 0b00000#5 0b111111#6 == rWord 0b010001#6 0b10000#5 0b00000#5 0b00000#5 0b00000#5 0b000010#6) = true
  simp [rWord_and]

theorem TableRow.mulPS (fd : FReg) (fs : FReg) (ft : FReg) : TableRow.Statement (.mulPS fd fs ft) := by
  intro w h; cases h
  refine TableRow.of_place 75 _ (congrArg some ?_)
  change (_ &&& rWord 0b111111#6 0b11111#5 0b00000#5 0b00000#5 0b00000#5 0b111111#6 == rWord 0b010001#6 0b10110#5 0b00000#5 0b00000#5 0b00000#5 0b000010#6) = true
  simp [rWord_and]

theorem TableRow.divD (fd : FReg) (fs : FReg) (ft : FReg) : TableRow.Statement (.divD fd fs ft) := by
  intro w h; cases h
  refine TableRow.of_place 76 _ (congrArg some ?_)
  change (_ &&& rWord 0b111111#6 0b11111#5 0b00000#5 0b00000#5 0b00000#5 0b111111#6 == rWord 0b010001#6 0b10001#5 0b00000#5 0b00000#5 0b00000#5 0b000011#6) = true
  simp [rWord_and]

theorem TableRow.divS (fd : FReg) (fs : FReg) (ft : FReg) : TableRow.Statement (.divS fd fs ft) := by
  intro w h; cases h
  refine TableRow.of_place 77 _ (congrArg some ?_)
  change (_ &&& rWord 0b111111#6 0b11111#5 0b00000#5 0b00000#5 0b00000#5 0b111111#6 == rWord 0b010001#6 0b10000#5 0b00000#5 0b00000#5 0b00000#5 0b000011#6) = true
  simp [rWord_and]

theorem TableRow.divPS (fd : FReg) (fs : FReg) (ft : FReg) : TableRow.Statement (.divPS fd fs ft) := by
  intro w h; cases h
  refine TableRow.of_place 78 _ (congrArg some ?_)
  change (_ &&& rWord 0b111111#6 0b11111#5 0b00000#5 0b00000#5 0b00000#5 0b111111#6 == rWord 0b010001#6 0b10110#5 0b00000#5 0b00000#5 0b00000#5 0b000011#6) = true
  simp [rWord_and]

theorem TableRow.maddD (fd : FReg) (fr : FReg) (fs : FReg) (ft : FReg) : TableRow.Statement (.maddD fd fr fs ft) := by
  intro w h; cases h
  refine TableRow.of_place 79 _ (congrArg some ?_)
  change (_ &&& rWord 0b111111#6 0b00000#5 0b00000#5 0b00000#5 0b00000#5 0b111111#6 == rWord 0b010011#6 0b00000#5 0b00000#5 0b00000#5 0b00000#5 0b100001#6) = true
  simp [rWord_and]

theorem TableRow.maddS (fd : FReg) (fr : FReg) (fs : FReg) (ft : FReg) : TableRow.Statement (.maddS fd fr fs ft) := by
  intro w h; cases h
  refine TableRow.of_place 80 _ (congrArg some ?_)
  change (_ &&& rWord 0b111111#6 0b00000#5 0b00000#5 0b00000#5 0b00000#5 0b111111#6 == rWord 0b010011#6 0b00000#5 0b00000#5 0b00000#5 0b00000#5 0b100000#6) = true
  simp [rWord_and]

theorem TableRow.maddPS (fd : FReg) (fr : FReg) (fs : FReg) (ft : FReg) : TableRow.Statement (.maddPS fd fr fs ft) := by
  intro w h; cases h
  refine TableRow.of_place 81 _ (congrArg some ?_)
  change (_ &&& rWord 0b111111#6 0b00000#5 0b00000#5 0b00000#5 0b00000#5 0b111111#6 == rWord 0b010011#6 0b00000#5 0b00000#5 0b00000#5 0b00000#5 0b100110#6) = true
  simp [rWord_and]

theorem TableRow.cvtSD (fd : FReg) (fs : FReg) : TableRow.Statement (.cvtSD fd fs) := by
  intro w h; cases h
  refine TableRow.of_place 82 _ (congrArg some ?_)
  change (_ &&& rWord 0b111111#6 0b11111#5 0b11111#5 0b00000#5 0b00000#5 0b111111#6 == rWord 0b010001#6 0b10001#5 0b00000#5 0b00000#5 0b00000#5 0b100000#6) = true
  simp [rWord_and]

theorem TableRow.cvtSW (fd : FReg) (fs : FReg) : TableRow.Statement (.cvtSW fd fs) := by
  intro w h; cases h
  refine TableRow.of_place 83 _ (congrArg some ?_)
  change (_ &&& rWord 0b111111#6 0b11111#5 0b11111#5 0b00000#5 0b00000#5 0b111111#6 == rWord 0b010001#6 0b10100#5 0b00000#5 0b00000#5 0b00000#5 0b100000#6) = true
  simp [rWord_and]

theorem TableRow.cvtSL (fd : FReg) (fs : FReg) : TableRow.Statement (.cvtSL fd fs) := by
  intro w h; cases h
  refine TableRow.of_place 84 _ (congrArg some ?_)
  change (_ &&& rWord 0b111111#6 0b11111#5 0b11111#5 0b00000#5 0b00000#5 0b111111#6 == rWord 0b010001#6 0b10101#5 0b00000#5 0b00000#5 0b00000#5 0b100000#6) = true
  simp [rWord_and]

theorem TableRow.cvtDS (fd : FReg) (fs : FReg) : TableRow.Statement (.cvtDS fd fs) := by
  intro w h; cases h
  refine TableRow.of_place 85 _ (congrArg some ?_)
  change (_ &&& rWord 0b111111#6 0b11111#5 0b11111#5 0b00000#5 0b00000#5 0b111111#6 == rWord 0b010001#6 0b10000#5 0b00000#5 0b00000#5 0b00000#5 0b100001#6) = true
  simp [rWord_and]

theorem TableRow.cvtDW (fd : FReg) (fs : FReg) : TableRow.Statement (.cvtDW fd fs) := by
  intro w h; cases h
  refine TableRow.of_place 86 _ (congrArg some ?_)
  change (_ &&& rWord 0b111111#6 0b11111#5 0b11111#5 0b00000#5 0b00000#5 0b111111#6 == rWord 0b010001#6 0b10100#5 0b00000#5 0b00000#5 0b00000#5 0b100001#6) = true
  simp [rWord_and]

theorem TableRow.cvtDL (fd : FReg) (fs : FReg) : TableRow.Statement (.cvtDL fd fs) := by
  intro w h; cases h
  refine TableRow.of_place 87 _ (congrArg some ?_)
  change (_ &&& rWord 0b111111#6 0b11111#5 0b11111#5 0b00000#5 0b00000#5 0b111111#6 == rWord 0b010001#6 0b10101#5 0b00000#5 0b00000#5 0b00000#5 0b100001#6) = true
  simp [rWord_and]

theorem TableRow.cvtWS (fd : FReg) (fs : FReg) : TableRow.Statement (.cvtWS fd fs) := by
  intro w h; cases h
  refine TableRow.of_place 88 _ (congrArg some ?_)
  change (_ &&& rWord 0b111111#6 0b11111#5 0b11111#5 0b00000#5 0b00000#5 0b111111#6 == rWord 0b010001#6 0b10000#5 0b00000#5 0b00000#5 0b00000#5 0b100100#6) = true
  simp [rWord_and]

theorem TableRow.cvtWD (fd : FReg) (fs : FReg) : TableRow.Statement (.cvtWD fd fs) := by
  intro w h; cases h
  refine TableRow.of_place 89 _ (congrArg some ?_)
  change (_ &&& rWord 0b111111#6 0b11111#5 0b11111#5 0b00000#5 0b00000#5 0b111111#6 == rWord 0b010001#6 0b10001#5 0b00000#5 0b00000#5 0b00000#5 0b100100#6) = true
  simp [rWord_and]

theorem TableRow.cvtLS (fd : FReg) (fs : FReg) : TableRow.Statement (.cvtLS fd fs) := by
  intro w h; cases h
  refine TableRow.of_place 90 _ (congrArg some ?_)
  change (_ &&& rWord 0b111111#6 0b11111#5 0b11111#5 0b00000#5 0b00000#5 0b111111#6 == rWord 0b010001#6 0b10000#5 0b00000#5 0b00000#5 0b00000#5 0b100101#6) = true
  simp [rWord_and]

theorem TableRow.cvtLD (fd : FReg) (fs : FReg) : TableRow.Statement (.cvtLD fd fs) := by
  intro w h; cases h
  refine TableRow.of_place 91 _ (congrArg some ?_)
  change (_ &&& rWord 0b111111#6 0b11111#5 0b11111#5 0b00000#5 0b00000#5 0b111111#6 == rWord 0b010001#6 0b10001#5 0b00000#5 0b00000#5 0b00000#5 0b100101#6) = true
  simp [rWord_and]

theorem TableRow.cLtS (cc : Cc) (fs : FReg) (ft : FReg) : TableRow.Statement (.cLtS cc fs ft) := by
  intro w h; cases h
  rw [compareWord_eq]; refine TableRow.of_place 92 _ (congrArg some ?_)
  change (_ &&& rWord 0b111111#6 0b11111#5 0b00000#5 0b00000#5 0b00011#5 0b111111#6 == rWord 0b010001#6 0b10000#5 0b00000#5 0b00000#5 0b00000#5 0b111100#6) = true
  simp [rWord_and, compareCc_low]

theorem TableRow.cLeS (cc : Cc) (fs : FReg) (ft : FReg) : TableRow.Statement (.cLeS cc fs ft) := by
  intro w h; cases h
  rw [compareWord_eq]; refine TableRow.of_place 93 _ (congrArg some ?_)
  change (_ &&& rWord 0b111111#6 0b11111#5 0b00000#5 0b00000#5 0b00011#5 0b111111#6 == rWord 0b010001#6 0b10000#5 0b00000#5 0b00000#5 0b00000#5 0b111110#6) = true
  simp [rWord_and, compareCc_low]

theorem TableRow.cGtS (cc : Cc) (fs : FReg) (ft : FReg) : TableRow.Statement (.cGtS cc fs ft) := by
  intro w h; cases h
  rw [compareWord_eq]; refine TableRow.of_place 92 _ (congrArg some ?_)
  change (_ &&& rWord 0b111111#6 0b11111#5 0b00000#5 0b00000#5 0b00011#5 0b111111#6 == rWord 0b010001#6 0b10000#5 0b00000#5 0b00000#5 0b00000#5 0b111100#6) = true
  simp [rWord_and, compareCc_low]

theorem TableRow.cGeS (cc : Cc) (fs : FReg) (ft : FReg) : TableRow.Statement (.cGeS cc fs ft) := by
  intro w h; cases h
  rw [compareWord_eq]; refine TableRow.of_place 93 _ (congrArg some ?_)
  change (_ &&& rWord 0b111111#6 0b11111#5 0b00000#5 0b00000#5 0b00011#5 0b111111#6 == rWord 0b010001#6 0b10000#5 0b00000#5 0b00000#5 0b00000#5 0b111110#6) = true
  simp [rWord_and, compareCc_low]

theorem TableRow.cEqS (cc : Cc) (fs : FReg) (ft : FReg) : TableRow.Statement (.cEqS cc fs ft) := by
  intro w h; cases h
  rw [compareWord_eq]; refine TableRow.of_place 94 _ (congrArg some ?_)
  change (_ &&& rWord 0b111111#6 0b11111#5 0b00000#5 0b00000#5 0b00011#5 0b111111#6 == rWord 0b010001#6 0b10000#5 0b00000#5 0b00000#5 0b00000#5 0b110010#6) = true
  simp [rWord_and, compareCc_low]

theorem TableRow.cNeS (cc : Cc) (fs : FReg) (ft : FReg) : TableRow.Statement (.cNeS cc fs ft) := by
  intro w h; cases h

theorem TableRow.cLtD (cc : Cc) (fs : FReg) (ft : FReg) : TableRow.Statement (.cLtD cc fs ft) := by
  intro w h; cases h
  rw [compareWord_eq]; refine TableRow.of_place 95 _ (congrArg some ?_)
  change (_ &&& rWord 0b111111#6 0b11111#5 0b00000#5 0b00000#5 0b00011#5 0b111111#6 == rWord 0b010001#6 0b10001#5 0b00000#5 0b00000#5 0b00000#5 0b111100#6) = true
  simp [rWord_and, compareCc_low]

theorem TableRow.cLeD (cc : Cc) (fs : FReg) (ft : FReg) : TableRow.Statement (.cLeD cc fs ft) := by
  intro w h; cases h
  rw [compareWord_eq]; refine TableRow.of_place 96 _ (congrArg some ?_)
  change (_ &&& rWord 0b111111#6 0b11111#5 0b00000#5 0b00000#5 0b00011#5 0b111111#6 == rWord 0b010001#6 0b10001#5 0b00000#5 0b00000#5 0b00000#5 0b111110#6) = true
  simp [rWord_and, compareCc_low]

theorem TableRow.cGtD (cc : Cc) (fs : FReg) (ft : FReg) : TableRow.Statement (.cGtD cc fs ft) := by
  intro w h; cases h
  rw [compareWord_eq]; refine TableRow.of_place 95 _ (congrArg some ?_)
  change (_ &&& rWord 0b111111#6 0b11111#5 0b00000#5 0b00000#5 0b00011#5 0b111111#6 == rWord 0b010001#6 0b10001#5 0b00000#5 0b00000#5 0b00000#5 0b111100#6) = true
  simp [rWord_and, compareCc_low]

theorem TableRow.cGeD (cc : Cc) (fs : FReg) (ft : FReg) : TableRow.Statement (.cGeD cc fs ft) := by
  intro w h; cases h
  rw [compareWord_eq]; refine TableRow.of_place 96 _ (congrArg some ?_)
  change (_ &&& rWord 0b111111#6 0b11111#5 0b00000#5 0b00000#5 0b00011#5 0b111111#6 == rWord 0b010001#6 0b10001#5 0b00000#5 0b00000#5 0b00000#5 0b111110#6) = true
  simp [rWord_and, compareCc_low]

theorem TableRow.cEqD (cc : Cc) (fs : FReg) (ft : FReg) : TableRow.Statement (.cEqD cc fs ft) := by
  intro w h; cases h
  rw [compareWord_eq]; refine TableRow.of_place 97 _ (congrArg some ?_)
  change (_ &&& rWord 0b111111#6 0b11111#5 0b00000#5 0b00000#5 0b00011#5 0b111111#6 == rWord 0b010001#6 0b10001#5 0b00000#5 0b00000#5 0b00000#5 0b110010#6) = true
  simp [rWord_and, compareCc_low]

theorem TableRow.cNeD (cc : Cc) (fs : FReg) (ft : FReg) : TableRow.Statement (.cNeD cc fs ft) := by
  intro w h; cases h

theorem TableRow.bc1t (cc : Cc) (offset : Imm) : TableRow.Statement (.bc1t cc offset) := by
  intro w h; cases h
  rw [fpBranchWord_eq]; refine TableRow.of_place 98 _ (congrArg some ?_)
  change (_ &&& iWord 0b111111#6 0b11111#5 0b00011#5 0x0000#16 == iWord 0b010001#6 0b01000#5 0b00001#5 0x0000#16) = true
  simp [iWord_and, branchCc_low]

theorem TableRow.bc1f (cc : Cc) (offset : Imm) : TableRow.Statement (.bc1f cc offset) := by
  intro w h; cases h
  rw [fpBranchWord_eq]; refine TableRow.of_place 99 _ (congrArg some ?_)
  change (_ &&& iWord 0b111111#6 0b11111#5 0b00011#5 0x0000#16 == iWord 0b010001#6 0b01000#5 0b00000#5 0x0000#16) = true
  simp [iWord_and, branchCc_low]

theorem TableRow.trap (code : TrapCode) : TableRow.Statement (.trap code) := by
  intro w h; cases h
  exact TableRow.of_place 100 _ (congrArg some (by simp [OpcodeRow.matches, trapWord_and]))

theorem TableRow.eret : TableRow.Statement .eret := by
  intro w h; cases h
  exact TableRow.of_place 101 _ rfl

theorem TableRow.nop : TableRow.Statement .nop := by
  intro w h; cases h
  refine TableRow.of_place 102 _ (congrArg some ?_)
  change (_ &&& rWord 0b111111#6 0b11111#5 0b11111#5 0b11111#5 0b11111#5 0b111111#6 == rWord 0b000000#6 0b00000#5 0b00000#5 0b00000#5 0b00000#5 0b000000#6) = true
  simp [rWord_and]

end Sys2Proof.Laws
end

