-- ==== Sys2Proof/Tests/Slice0.lean ====
section
/-! SUPPORT. The tests: words of spec/95_test_vectors.md decoded, ill-formed instructions, one step on small states with the results
of spec/95_test_vectors.md (each test names its vector), the assembler, the launch, and a witness for every statement that has
hypotheses. -/

namespace Sys2Proof.Tests

open Sys2Proof.Machine

-- Small states: `base` is in User mode and `kern` in Kernel mode, both at 0x400000, with memory and text empty.

def base : State := { State.reset with pc := 0x400000, status := 0b10000 }
def kern : State := { State.reset with pc := 0x400000, status := 0 }
def x (r : Reg) (v : Word) (s : State) : State := writeGpr s r v
def f (r : FReg) (v : Word) (s : State) : State := writeFpr s r v
def cc (c : Cc) (b : Bool) (s : State) : State := writeFcc s c b
def hilo (h l : Word) (s : State) : State := { s with hi := h, lo := l }
def at_ (a : Word) (s : State) : State := { s with pc := a }
def pending (a : Word) (s : State) : State := { s with delay := some a }
def epc (a : Word) (s : State) : State := { s with epc := a }
def status (v : Word) (s : State) : State := { s with status := v }
def little (s : State) : State := { s with params := { s.params with endian := .little } }
def slots (s : State) : State := { s with params := { s.params with delaySlot := true } }
def wide (s : State) : State := { s with params := { s.params with maddMode := .wide128 } }
def host (s : State) : State := { s with params := { s.params with hostTraps := true } }
def without (a : Word) (s : State) : State :=
  { s with params := { s.params with backed := [⟨0, a - 1⟩, ⟨a + 8, 0xFFFFFFFFFFFFFFFF⟩] } }
def guarded (a : Word) (s : State) : State := { s with params := { s.params with userAccessible := [⟨0, a - 1⟩] } }
def endAt (a : Word) (s : State) : State := { s with params := { s.params with endPc := some a } }
def stored (a : Word) (k : Nat) (v : Word) (s : State) : State :=
  { s with mem := s.mem.storeBytes a (bytesOfValue s.params.endian k v) }

/-- One step of a word, and of an instruction of the assembly level. -/
def runW (s : State) (w : IWord) : Result := step (placeWord s w)
def runI (s : State) (i : Instr) : Result := step (placeInstr s i)

/-- What a next state reads as, and why a step was refused. -/
def reads {α : Type} (r : Result) (g : State → α) : Option α :=
  match r with
  | .next t => some (g t)
  | _ => none
def refusal (r : Result) : Option Refusal :=
  match r with
  | .refused q => some q
  | _ => none

/-- One step of the word leaves `v` in the low half of f[fd] and any32 in its upper half, and advances. -/
def lowWritten (s : State) (w : IWord) (fd : FReg) (v : BitVec 32) : Prop :=
  runW s w = advance (writeFprLow (placeWord s w) fd v)
/-- One step of the word leaves `v` in the low half of Status and any32 in its upper half, and advances. -/
def statusLowWritten (s : State) (w : IWord) (v : BitVec 32) : Prop :=
  runW s w = advance { drawn (placeWord s w) with status := (any64 (placeWord s w)).extractLsb' 32 32 ++ v }

-- Well-formedness (R101, R103): each check refuses an instruction

/-- `hasWord` refuses C.NE. -/
theorem test_wellFormed_cne : (Instr.cNeS 0 4 6).wellFormed = false ∧ (Instr.cNeD 7 31 31).wellFormed = false := by decide

/-- `assembleOnly` refuses C.GT and C.GE. -/
theorem test_wellFormed_cgt :
    (Instr.cGtS 0 4 6).wellFormed = false ∧ (Instr.cGeS 0 4 6).wellFormed = false ∧
    (Instr.cGtD 0 4 6).wellFormed = false ∧ (Instr.cGeD 0 4 6).wellFormed = false := by decide

/-- Every other condition is well formed. -/
theorem test_wellFormed_clt : (Instr.cLtS 0 4 6).wellFormed = true ∧ (Instr.cEqD 7 31 31).wellFormed = true := by decide

-- Words of spec/95_test_vectors.md and the instruction each stands for

theorem test_decode_loadStore :
    decode 0x80410000 = .ok (.lb 1 0 2) ∧ decode 0x90410000 = .ok (.lbu 1 0 2) ∧ decode 0x84410001 = .ok (.lh 1 1 2) ∧
    decode 0x94410006 = .ok (.lhu 1 6 2) ∧ decode 0x8C410002 = .ok (.lw 1 2 2) ∧ decode 0x9C410000 = .ok (.lwu 1 0 2) ∧
    decode 0xDC410000 = .ok (.ld 1 0 2) ∧ decode 0xA0410001 = .ok (.sb 1 1 2) ∧ decode 0xA4410001 = .ok (.sh 1 1 2) ∧
    decode 0xAC410002 = .ok (.sw 1 2 2) ∧ decode 0xFC410000 = .ok (.sd 1 0 2) ∧ decode 0xC4410004 = .ok (.lS 1 4 2) ∧
    decode 0xD4410000 = .ok (.lD 1 0 2) ∧ decode 0x3C017FFF = .ok (.lui 1 0x7FFF) ∧
    decode 0xE4410002 = .ok (.sS 1 2 2) ∧ decode 0xF4410000 = .ok (.sD 1 0 2) := by decide

theorem test_decode_arithmetic :
    decode 0x0043082D = .ok (.daddu 1 2 3) ∧ decode 0x64400005 = .ok (.daddiu 0 2 5) ∧
    decode 0x0043082F = .ok (.dsubu 1 2 3) ∧ decode 0x0022001C = .ok (.dmult 1 2) ∧
    decode 0x0022001D = .ok (.dmultu 1 2) ∧ decode 0x0022001E = .ok (.ddiv 1 2) ∧
    decode 0x0022001F = .ok (.ddivu 1 2) ∧ decode 0x70220000 = .ok (.madd 1 2) := by decide

theorem test_decode_specialMove :
    decode 0x00000810 = .ok (.mfhi 1) ∧ decode 0x00000812 = .ok (.mflo 1) ∧ decode 0x00200011 = .ok (.mthi 1) ∧
    decode 0x00200013 = .ok (.mtlo 1) ∧ decode 0x40016000 = .ok (.mfc0 1 12) ∧ decode 0x40816000 = .ok (.mtc0 1 12) ∧
    decode 0x40217000 = .ok (.dmfc0 1 14) ∧ decode 0x40A17000 = .ok (.dmtc0 1 14) ∧
    decode 0x44011000 = .ok (.mfc1 1 2) ∧ decode 0x44811000 = .ok (.mtc1 1 2) ∧ decode 0x44211000 = .ok (.dmfc1 1 2) ∧
    decode 0x44A01000 = .ok (.dmtc1 0 2) ∧ decode 0x46001046 = .ok (.movS 1 2) ∧ decode 0x46201046 = .ok (.movD 1 2) := by decide

theorem test_decode_logical :
    decode 0x00430824 = .ok (.and 1 2 3) ∧ decode 0x00400825 = .ok (.or 1 2 0) ∧ decode 0x00430826 = .ok (.xor 1 2 3) ∧
    decode 0x00000827 = .ok (.nor 1 0 0) ∧ decode 0x304100FF = .ok (.andi 1 2 0xFF) ∧
    decode 0x34418000 = .ok (.ori 1 2 0x8000) ∧ decode 0x3841FFFF = .ok (.xori 1 2 0xFFFF) := by decide

theorem test_decode_shift :
    decode 0x00620814 = .ok (.dsllv 1 2 3) ∧ decode 0x00620816 = .ok (.dsrlv 1 2 3) ∧
    decode 0x00620817 = .ok (.dsrav 1 2 3) ∧ decode 0x00020838 = .ok (.dsll 1 2 0) ∧
    decode 0x0002083A = .ok (.dsrl 1 2 0) ∧ decode 0x0002083B = .ok (.dsra 1 2 0) := by decide

theorem test_decode_control :
    decode 0x08100008 = .ok (.j 0x100008) ∧ decode 0x00A00008 = .ok (.jr 5) ∧ decode 0x0C100008 = .ok (.jal 0x100008) ∧
    decode 0x03E0F809 = .ok (.jalr 31) ∧ decode 0x18200007 = .ok (.blez 1 7) ∧ decode 0x04200007 = .ok (.bltz 1 7) ∧
    decode 0x04210007 = .ok (.bgez 1 7) ∧ decode 0x1C200007 = .ok (.bgtz 1 7) ∧ decode 0x10220007 = .ok (.beq 1 2 7) ∧
    decode 0x1422FFFD = .ok (.bne 1 2 0xFFFD) ∧ decode 0x0043080A = .ok (.movz 1 2 3) ∧
    decode 0x0043080B = .ok (.movn 1 2 3) := by decide

theorem test_decode_setOnCondition :
    decode 0x0043082A = .ok (.slt 1 2 3) ∧ decode 0x0043082B = .ok (.sltu 1 2 3) ∧
    decode 0x2841FFFF = .ok (.slti 1 2 0xFFFF) ∧ decode 0x2C418000 = .ok (.sltiu 1 2 0x8000) := by decide

theorem test_decode_float :
    decode 0x46262080 = .ok (.addD 2 4 6) ∧ decode 0x46062080 = .ok (.addS 2 4 6) ∧
    decode 0x46C62080 = .ok (.addPS 2 4 6) ∧ decode 0x46262081 = .ok (.subD 2 4 6) ∧
    decode 0x46062081 = .ok (.subS 2 4 6) ∧ decode 0x46C62081 = .ok (.subPS 2 4 6) ∧
    decode 0x46262082 = .ok (.mulD 2 4 6) ∧ decode 0x46062082 = .ok (.mulS 2 4 6) ∧
    decode 0x46C62082 = .ok (.mulPS 2 4 6) ∧ decode 0x46262083 = .ok (.divD 2 4 6) ∧
    decode 0x46062083 = .ok (.divS 2 4 6) ∧ decode 0x46C62083 = .ok (.divPS 2 4 6) ∧
    decode 0x4D0620A1 = .ok (.maddD 2 8 4 6) ∧ decode 0x4D0620A0 = .ok (.maddS 2 8 4 6) ∧
    decode 0x4D0620A6 = .ok (.maddPS 2 8 4 6) ∧ decode 0x462020A0 = .ok (.cvtSD 2 4) ∧
    decode 0x468020A0 = .ok (.cvtSW 2 4) := by decide

theorem test_decode_float_2 :
    decode 0x46A020A0 = .ok (.cvtSL 2 4) ∧ decode 0x460020A1 = .ok (.cvtDS 2 4) ∧
    decode 0x468020A1 = .ok (.cvtDW 2 4) ∧ decode 0x46A020A1 = .ok (.cvtDL 2 4) ∧
    decode 0x460020A4 = .ok (.cvtWS 2 4) ∧ decode 0x462020A4 = .ok (.cvtWD 2 4) ∧
    decode 0x460020A5 = .ok (.cvtLS 2 4) ∧ decode 0x462020A5 = .ok (.cvtLD 2 4) ∧
    decode 0x4606233C = .ok (.cLtS 3 4 6) ∧ decode 0x4606213E = .ok (.cLeS 1 4 6) ∧
    decode 0x46062032 = .ok (.cEqS 0 4 6) ∧ decode 0x4626203C = .ok (.cLtD 0 4 6) ∧
    decode 0x4626203E = .ok (.cLeD 0 4 6) ∧ decode 0x46262232 = .ok (.cEqD 2 4 6) ∧
    decode 0x450D0007 = .ok (.bc1t 3 7) ∧ decode 0x450C0007 = .ok (.bc1f 3 7) := by decide

theorem test_decode_special :
    decode 0x0000000C = .ok (.trap 0) ∧ decode 0x42000018 = .ok .eret ∧ decode 0x00000000 = .ok .nop := by decide

/-- Words outside Table 30-2 (R104; spec/95_test_vectors.md section 2.9): ADD, SPECIAL3, a JALR with rd = 30, MFC0 with sel 1. -/
theorem test_decode_rejects :
    decode 0x00000020 = .error .wordOutsideCard ∧ decode 0x7C000000 = .error .wordOutsideCard ∧
    decode 0x00A0F009 = .error .wordOutsideCard ∧ decode 0x40016001 = .error .wordOutsideCard ∧
    decodeBytes .big [0x80, 0x41, 0x00] = .error .tooShort := by decide

/-- The words of C.GT and C.GE are those of C.LT and C.LE with the sources exchanged (vectors FC-4, FC-6). -/
theorem test_encode_exchanged : encode (.cGtS 0 4 6) = some 0x4604303C ∧ encode (.cGeD 0 4 6) = some 0x4624303E := by decide

/-- LB R1, 0(R2) as bytes in the two orders (R63), and as the host numbers its bits. -/
theorem test_decode_bytes :
    decodeBytes .big [0x80, 0x41, 0x00, 0x00] = .ok (.lb 1 0 2, []) ∧
    decodeBytes .little [0x00, 0x00, 0x41, 0x80] = .ok (.lb 1 0 2, []) ∧
    decodeTableWord 32 0x80410000 = some (.lb 1 0 2) := by decide

/-- A placed word is what the first step after reset runs: LUI R1, 0x8000 (vector LS-43). -/
theorem test_withFetchWord :
    reads (step (State.reset.withFetchWord 32 0x3C018000)) (fun t => readGpr t 1) = some 0xFFFFFFFF80000000 := by decide

-- The assembler (R95 to R99, R108, R109, R252)

/-- LW R2, 8(R1), DSLL with the amount taken modulo 32 (R96), an immediate out of range, a refused CVT pair. -/
theorem test_assemble :
    assemble [] 0x400000 "LW" [.gpr 2, .mem (.dec 8) 1] = .ok (.lw 2 8 1) ∧
    assemble [] 0x400000 "DSLL" [.gpr 1, .gpr 2, .num (.dec 33)] = .ok (.dsll 1 2 1) ∧
    assemble [] 0x400000 "DADDIU" [.gpr 1, .gpr 2, .num (.dec 32768)] = .error .outOfRange ∧
    assemble [] 0x400000 "CVT.W.L" [.fpr 1, .fpr 2] = .error .cvtPairNotAdmitted := by decide

/-- Labels: S-1 (field 0x0100008) and S-2 (offsets 0, 7 and -1) of spec/95_test_vectors.md. -/
theorem test_assemble_labels :
    assemble [("t", 0x400020)] 0x400000 "J" [.label "t"] = .ok (.j 0x0100008) ∧
    assemble [("t", 0x400020)] 0x400000 "BEQ" [.gpr 1, .gpr 2, .label "t"] = .ok (.beq 1 2 7) ∧
    assemble [("t", 0x400004)] 0x400000 "BC1T" [.label "t"] = .ok (.bc1t 0 0) ∧
    assemble [("t", 0x400000)] 0x400000 "BC1F" [.num (.dec 3), .label "t"] = .ok (.bc1f 3 0xFFFF) := by decide

-- Load-store (spec/40_load_store.md)

/-- LS-41: LB R1, -1(R2) (R121). -/
theorem test_lb :
    reads (runW (base |> x 2 0x0 |> stored 0xFFFFFFFFFFFFFFFF 1 0x7F) 0x8041FFFF) (fun t => readGpr t 1)
      = some 0x7F := by decide

/-- LS-19: LBU R1, 0(R2) (R122). -/
theorem test_lbu :
    reads (runW (base |> little |> x 2 0x10000000 |> stored 0x10000000 8 0x8091A2B3C4D5E6F7) 0x90410000)
        (fun t => readGpr t 1)
      = some 0xF7 := by decide

/-- LS-3: LH R1, 6(R2) (R123). -/
theorem test_lh :
    reads (runW (base |> x 2 0x10000000 |> stored 0x10000000 8 0x8091A2B3C4D5E6F7) 0x84410006) (fun t => readGpr t 1)
      = some 0xFFFFFFFFFFFFE6F7 := by decide

/-- LS-21: LHU R1, 6(R2) (R124). -/
theorem test_lhu :
    reads (runW (base |> little |> x 2 0x10000000 |> stored 0x10000000 8 0x8091A2B3C4D5E6F7) 0x94410006)
        (fun t => readGpr t 1)
      = some 0x8091 := by decide

/-- LS-5: LW R1, 0(R2) (R125). -/
theorem test_lw :
    reads (runW (base |> x 2 0x10000000 |> stored 0x10000000 8 0x8091A2B3C4D5E6F7) 0x8C410000) (fun t => readGpr t 1)
      = some 0xFFFFFFFF8091A2B3 := by decide

/-- EX-5: LW R1, 2(R2) (R125, R291). -/
theorem test_lw_2 :
    reads (runW (base |> x 2 0x10000000) 0x8C410002)
        (fun t => (t.pc, t.epc, t.status.extractLsb' 0 5, t.cause.excCode, t.cause.bd, t.badVAddr))
      = some (0xFFFFFFFF80000180, 0x400000, 0b10010, 4, false, 0x10000002) := by decide

/-- LS-6: LWU R1, 0(R2) (R126). -/
theorem test_lwu :
    reads (runW (base |> x 2 0x10000000 |> stored 0x10000000 8 0x8091A2B3C4D5E6F7) 0x9C410000) (fun t => readGpr t 1)
      = some 0x8091A2B3 := by decide

/-- LS-9: LD R1, -8(R2) (R127). -/
theorem test_ld :
    reads (runW (base |> x 2 0x10000008 |> stored 0x10000000 8 0x8091A2B3C4D5E6F7) 0xDC41FFF8) (fun t => readGpr t 1)
      = some 0x8091A2B3C4D5E6F7 := by decide

/-- EX-10: LD R1, 0(R2) (R66, R292). -/
theorem test_ld_2 :
    reads (runW (base |> x 2 0x20000000 |> without 0x20000000) 0xDC410000)
        (fun t => (t.pc, t.epc, t.status.extractLsb' 0 5, t.cause.excCode, t.cause.bd))
      = some (0xFFFFFFFF80000180, 0x400000, 0b10010, 7, false) := by decide

/-- LS-10: SB R1, 1(R2) (R128). -/
theorem test_sb :
    reads (runW (base |> x 2 0x10000000 |> x 1 0x1234567890ABCDEF |> stored 0x10000000 8 0x8091A2B3C4D5E6F7) 0xA0410001)
        (fun t => readBytes t 0x10000000 8)
      = some [0x80, 0xEF, 0xA2, 0xB3, 0xC4, 0xD5, 0xE6, 0xF7] := by decide

/-- LS-28: SH R1, 2(R2) (R129). -/
theorem test_sh :
    reads (runW (base |> little |> x 2 0x10000000 |> x 1 0x1234567890ABCDEF |> stored 0x10000000 8 0x8091A2B3C4D5E6F7) 0xA4410002)
        (fun t => readBytes t 0x10000000 8)
      = some [0xF7, 0xE6, 0xEF, 0xCD, 0xB3, 0xA2, 0x91, 0x80] := by decide

/-- LS-12: SW R1, 4(R2) (R130). -/
theorem test_sw :
    reads (runW (base |> x 2 0x10000000 |> x 1 0x1234567890ABCDEF |> stored 0x10000000 8 0x8091A2B3C4D5E6F7) 0xAC410004)
        (fun t => readBytes t 0x10000000 8)
      = some [0x80, 0x91, 0xA2, 0xB3, 0x90, 0xAB, 0xCD, 0xEF] := by decide

/-- EX-6: SW R1, 2(R2) (R130, R291). -/
theorem test_sw_2 :
    reads (runW (base |> x 1 0x0 |> x 2 0x10000000) 0xAC410002)
        (fun t => (t.pc, t.epc, t.status.extractLsb' 0 5, t.cause.excCode, t.cause.bd, t.badVAddr))
      = some (0xFFFFFFFF80000180, 0x400000, 0b10010, 5, false, 0x10000002) := by decide

/-- LS-30: SD R1, 0(R2) (R131). -/
theorem test_sd :
    reads (runW (base |> little |> x 2 0x10000000 |> x 1 0x1234567890ABCDEF |> stored 0x10000000 8 0x8091A2B3C4D5E6F7) 0xFC410000)
        (fun t => readBytes t 0x10000000 8)
      = some [0xEF, 0xCD, 0xAB, 0x90, 0x78, 0x56, 0x34, 0x12] := by decide

/-- LS-14: L.S F1, 4(R2) (R132). -/
theorem test_l_s :
    reads (runW (base |> x 2 0x10000000 |> stored 0x10000000 8 0x8091A2B3C4D5E6F7) 0xC4410004) (fun t => readFpr t 1)
      = some 0xC4D5E6F7 := by decide

/-- LS-32: L.D F1, 0(R2) (R133). -/
theorem test_l_d :
    reads (runW (base |> little |> x 2 0x10000000 |> stored 0x10000000 8 0x8091A2B3C4D5E6F7) 0xD4410000)
        (fun t => readFpr t 1)
      = some 0x8091A2B3C4D5E6F7 := by decide

/-- LS-16: S.S F1, 0(R2) (R135). -/
theorem test_s_s :
    reads (runW (base |> x 2 0x10000000 |> f 1 0xAAAAAAAA3FC00000 |> stored 0x10000000 8 0x8091A2B3C4D5E6F7) 0xE4410000)
        (fun t => readBytes t 0x10000000 8)
      = some [0x3F, 0xC0, 0x00, 0x00, 0xC4, 0xD5, 0xE6, 0xF7] := by decide

/-- LS-34: S.D F1, 0(R2) (R136). -/
theorem test_s_d :
    reads (runW (base |> little |> x 2 0x10000000 |> f 1 0x400C000000000000 |> stored 0x10000000 8 0x8091A2B3C4D5E6F7) 0xF4410000)
        (fun t => readBytes t 0x10000000 8)
      = some [0x00, 0x00, 0x00, 0x00, 0x00, 0x00, 0x0C, 0x40] := by decide

/-- LS-43: LUI R1, 0x8000 (R134). -/
theorem test_lui : reads (runW base 0x3C018000) (fun t => readGpr t 1) = some 0xFFFFFFFF80000000 := by decide

-- Arithmetic (spec/41_arithmetic.md)

/-- AR-1: DADDU R1, R2, R3 (R141). -/
theorem test_daddu :
    reads (runW (base |> x 2 0xFFFFFFFFFFFFFFFF |> x 3 0x1) 0x0043082D) (fun t => readGpr t 1) = some 0x0 := by decide

/-- AR-5: DADDIU R1, R2, -32768 (R142). -/
theorem test_daddiu : reads (runW (base |> x 2 0x0) 0x64418000) (fun t => readGpr t 1) = some 0xFFFFFFFFFFFF8000 := by decide

/-- AR-8: DSUBU R1, R2, R3 (R143). -/
theorem test_dsubu :
    reads (runW (base |> x 2 0x0 |> x 3 0x1) 0x0043082F) (fun t => readGpr t 1) = some 0xFFFFFFFFFFFFFFFF := by decide

/-- AR-11: DMULT R1, R2 (R144). -/
theorem test_dmult :
    reads (runW (base |> x 1 0xFFFFFFFFFFFFFFFE |> x 2 0x3) 0x0022001C) (fun t => t.hi ++ t.lo)
      = some (0xFFFFFFFFFFFFFFFF#64 ++ 0xFFFFFFFFFFFFFFFA#64) := by decide

/-- AR-17: DMULTU R1, R2 (R145). -/
theorem test_dmultu :
    reads (runW (base |> x 1 0xFFFFFFFFFFFFFFFF |> x 2 0xFFFFFFFFFFFFFFFF) 0x0022001D) (fun t => t.hi ++ t.lo)
      = some (0xFFFFFFFFFFFFFFFE#64 ++ 0x1#64) := by decide

/-- AR-20: DDIV R1, R2 (R146). -/
theorem test_ddiv :
    reads (runW (base |> x 1 0xFFFFFFFFFFFFFFF9 |> x 2 0x2) 0x0022001E) (fun t => t.hi ++ t.lo)
      = some (0xFFFFFFFFFFFFFFFF#64 ++ 0xFFFFFFFFFFFFFFFD#64) := by decide

/-- AR-29: DDIVU R1, R2 (R147). -/
theorem test_ddivu :
    reads (runW (base |> x 1 0x8000000000000000 |> x 2 0xFFFFFFFFFFFFFFFF) 0x0022001F) (fun t => t.hi ++ t.lo)
      = some (0x8000000000000000#64 ++ 0x0#64) := by decide

/-- AR-34: MADD R1, R2 (R148). -/
theorem test_madd :
    reads (runW (base |> x 1 0x7FFFFFFF |> x 2 0x7FFFFFFF |> hilo 0x7FFFFFFF 0xFFFFFFFFFFFFFFFF) 0x70220000)
        (fun t => t.hi ++ t.lo)
      = some (0xFFFFFFFFBFFFFFFF#64 ++ 0x0#64) := by decide

/-- AR-35: MADD R1, R2 (R148). -/
theorem test_madd_2 :
    refusal (runW (base |> x 1 0x100000000 |> x 2 0x1 |> hilo 0x0 0x0) 0x70220000) = some .maddOperandNot32bit := by decide

-- Special move (spec/42_special_move.md)

/-- SM-1: MFHI R1 (R155). -/
theorem test_mfhi : reads (runW (base |> hilo 0x1111 0x2222) 0x00000810) (fun t => readGpr t 1) = some 0x1111 := by decide

/-- SM-2: MFLO R1 (R156). -/
theorem test_mflo : reads (runW (base |> hilo 0x1111 0x2222) 0x00000812) (fun t => readGpr t 1) = some 0x2222 := by decide

/-- SM-3: MTHI R1 (R157). -/
theorem test_mthi :
    reads (runW (base |> x 1 0xABCD |> hilo 0x1111 0x2222) 0x00200011) (fun t => t.hi ++ t.lo)
      = some (0xABCD#64 ++ 0x2222#64) := by decide

/-- SM-4: MTLO R1 (R158). -/
theorem test_mtlo :
    reads (runW (base |> x 1 0xABCD |> hilo 0x1111 0x2222) 0x00200013) (fun t => t.hi ++ t.lo)
      = some (0x1111#64 ++ 0xABCD#64) := by decide

/-- SM-14: MFC0 R1, 12 (R161). -/
theorem test_mfc0 : reads (runW (kern |> status 0b10010) 0x40016000) (fun t => readGpr t 1) = some 0x12 := by decide

/-- EX-11: MFC0 R1, 12 (R160, R294). -/
theorem test_mfc0_2 :
    reads (runW base 0x40016000) (fun t => (t.pc, t.epc, t.status.extractLsb' 0 5, t.cause.excCode, t.cause.bd))
      = some (0xFFFFFFFF80000180, 0x400000, 0b10010, 11, false) := by decide

/-- SM-17: MTC0 R1, 12 (R162). -/
theorem test_mtc0 : statusLowWritten (kern |> x 1 0x10) 0x40816000 0x10 := rfl

/-- SM-15: DMFC0 R1, 14 (R163). -/
theorem test_dmfc0 : reads (runW (kern |> epc 0x400010) 0x40217000) (fun t => readGpr t 1) = some 0x400010 := by decide

/-- SM-16: DMTC0 R1, 14 (R164). -/
theorem test_dmtc0 : reads (runW (kern |> x 1 0x400014) 0x40A17000) (fun t => t.epc) = some 0x400014 := by decide

/-- SM-6: MFC1 R1, F2 (R165). -/
theorem test_mfc1 :
    reads (runW (base |> f 2 0x12345678FFC00000) 0x44011000) (fun t => readGpr t 1) = some 0xFFFFFFFFFFC00000 := by decide

/-- SM-9: MTC1 R1, F2 (R166). -/
theorem test_mtc1 : lowWritten (base |> x 1 0xAAAAAAAA3F800000) 0x44811000 2 0x3F800000 := rfl

/-- SM-8: DMFC1 R1, F2 (R167). -/
theorem test_dmfc1 :
    reads (runW (base |> f 2 0x12345678FFC00000) 0x44211000) (fun t => readGpr t 1) = some 0x12345678FFC00000 := by decide

/-- SM-10: DMTC1 R1, F2 (R168). -/
theorem test_dmtc1 :
    reads (runW (base |> x 1 0x3FF0000000000000) 0x44A11000) (fun t => readFpr t 2) = some 0x3FF0000000000000 := by decide

/-- SM-12: MOV.S F1, F2 (R169). -/
theorem test_mov_s : lowWritten (base |> f 2 0x111111113F800000) 0x46001046 1 0x3F800000 := rfl

/-- SM-13: MOV.D F1, F2 (R170). -/
theorem test_mov_d :
    reads (runW (base |> f 2 0x7FF8000000000001) 0x46201046) (fun t => readFpr t 1) = some 0x7FF8000000000001 := by decide

-- Logical (spec/43_logical.md)

/-- LG-1: AND R1, R2, R3 (R176). -/
theorem test_and :
    reads (runW (base |> x 2 0xFF00FF00FF00FF00 |> x 3 0xFF00FF00FF00FF0) 0x00430824) (fun t => readGpr t 1)
      = some 0xF000F000F000F00 := by decide

/-- LG-2: OR R1, R2, R3 (R177). -/
theorem test_or :
    reads (runW (base |> x 2 0xFF00FF00FF00FF00 |> x 3 0xFF00FF00FF00FF0) 0x00430825) (fun t => readGpr t 1)
      = some 0xFFF0FFF0FFF0FFF0 := by decide

/-- LG-3: XOR R1, R2, R3 (R178). -/
theorem test_xor :
    reads (runW (base |> x 2 0xFF00FF00FF00FF00 |> x 3 0xFF00FF00FF00FF0) 0x00430826) (fun t => readGpr t 1)
      = some 0xF0F0F0F0F0F0F0F0 := by decide

/-- LG-4: NOR R1, R2, R3 (R179). -/
theorem test_nor :
    reads (runW (base |> x 2 0xFF00FF00FF00FF00 |> x 3 0xFF00FF00FF00FF0) 0x00430827) (fun t => readGpr t 1)
      = some 0xF000F000F000F := by decide

/-- LG-7: ANDI R1, R2, 0xFFFF (R180). -/
theorem test_andi :
    reads (runW (base |> x 2 0xFFFFFFFFFFFFFFFF) 0x3041FFFF) (fun t => readGpr t 1) = some 0xFFFF := by decide

/-- LG-8: ORI R1, R2, 0x8000 (R181). -/
theorem test_ori : reads (runW (base |> x 2 0x0) 0x34418000) (fun t => readGpr t 1) = some 0x8000 := by decide

/-- LG-9: XORI R1, R2, 0xFFFF (R182). -/
theorem test_xori :
    reads (runW (base |> x 2 0xFFFFFFFFFFFFFFFF) 0x3841FFFF) (fun t => readGpr t 1) = some 0xFFFFFFFFFFFF0000 := by decide

-- Shift (spec/44_shift.md)

/-- SH-22: DSLLV R1, R2, R3 (R186). -/
theorem test_dsllv :
    reads (runW (base |> x 2 0x8000000000000001 |> x 3 0x41) 0x00620814) (fun t => readGpr t 1) = some 0x2 := by decide

/-- SH-23: DSRLV R1, R2, R3 (R187). -/
theorem test_dsrlv :
    reads (runW (base |> x 2 0x8000000000000001 |> x 3 0x41) 0x00620816) (fun t => readGpr t 1)
      = some 0x4000000000000000 := by decide

/-- SH-24: DSRAV R1, R2, R3 (R188). -/
theorem test_dsrav :
    reads (runW (base |> x 2 0x8000000000000001 |> x 3 0x41) 0x00620817) (fun t => readGpr t 1)
      = some 0xC000000000000000 := by decide

/-- SH-4: DSLL R1, R2, 31 (R189). -/
theorem test_dsll :
    reads (runW (base |> x 2 0x8000000000000001) 0x00020FF8) (fun t => readGpr t 1) = some 0x80000000 := by decide

/-- SH-5: DSRL R1, R2, 31 (R190). -/
theorem test_dsrl :
    reads (runW (base |> x 2 0x8000000000000001) 0x00020FFA) (fun t => readGpr t 1) = some 0x100000000 := by decide

/-- SH-6: DSRA R1, R2, 31 (R191). -/
theorem test_dsra :
    reads (runW (base |> x 2 0x8000000000000001) 0x00020FFB) (fun t => readGpr t 1) = some 0xFFFFFFFF00000000 := by decide

-- Control and transfer (spec/45_control_transfer.md)

/-- CT-28: J t (R197). -/
theorem test_j :
    reads (runW (base |> slots) 0x08100008) (fun t => (t.pc, t.delay)) = some (0x400004, some 0x400020) := by decide

/-- CT-57: J 0xFFFFFF0 (R197). -/
theorem test_j_2 : refusal (runW (base |> at_ 0xFFFFFFC) 0x0BFFFFFC) = some .jumpAtRegionEnd := by decide

/-- CT-4: JR R5 (R198). -/
theorem test_jr :
    reads (runW (base |> x 5 0x12345679) 0x00A00008) (fun t => (t.pc, t.delay)) = some (0x12345679, none) := by decide

/-- CT-29: JAL t (R199). -/
theorem test_jal :
    reads (runW (base |> slots) 0x0C100008) (fun t => (readGpr t 31, (t.pc, t.delay)))
      = some (0x400008, (0x400004, some 0x400020)) := by decide

/-- CT-32: JALR R5 (R200). -/
theorem test_jalr :
    reads (runW (base |> slots |> x 5 0xFFFFFFFF80001000) 0x00A0F809) (fun t => (readGpr t 31, (t.pc, t.delay)))
      = some (0x400008, (0x400004, some 0xFFFFFFFF80001000)) := by decide

/-- CT-6: JALR R31 (R200). -/
theorem test_jalr_2 : refusal (runW (base |> x 31 0x400100) 0x03E0F809) = some .jalrRsEqualsLink := by decide

/-- CT-39: BLEZ R1, t (R202). -/
theorem test_blez :
    reads (runW (base |> slots |> x 1 0xFFFFFFFFFFFFFFFF) 0x18200007) (fun t => (t.pc, t.delay))
      = some (0x400004, some 0x400020) := by decide

/-- CT-13: BLTZ R1, t (R203). -/
theorem test_bltz : reads (runW (base |> x 1 0x0) 0x04200007) (fun t => (t.pc, t.delay)) = some (0x400004, none) := by decide

/-- CT-43: BGEZ R1, t (R204). -/
theorem test_bgez :
    reads (runW (base |> slots |> x 1 0x0) 0x04210007) (fun t => (t.pc, t.delay))
      = some (0x400004, some 0x400020) := by decide

/-- CT-21: BGTZ R1, t (R205). -/
theorem test_bgtz :
    reads (runW (base |> x 1 0xFFFFFFFFFFFFFFFF) 0x1C200007) (fun t => (t.pc, t.delay)) = some (0x400004, none) := by decide

/-- CT-34: BEQ R1, R2, t (R206). -/
theorem test_beq :
    reads (runW (base |> slots |> x 1 0x5 |> x 2 0x5) 0x10220007) (fun t => (t.pc, t.delay))
      = some (0x400004, some 0x400020) := by decide

/-- CT-9: BNE R1, R2, b (R207). -/
theorem test_bne :
    reads (runW (base |> x 1 0x5 |> x 2 0x6) 0x1422FFFD) (fun t => (t.pc, t.delay)) = some (0x3FFFF8, none) := by decide

/-- CT-53: MOVZ R1, R2, R3 (R208). -/
theorem test_movz :
    reads (runW (base |> x 1 0x9 |> x 2 0x7 |> x 3 0x0) 0x0043080A) (fun t => readGpr t 1) = some 0x7 := by decide

/-- CT-55: MOVN R1, R2, R3 (R209). -/
theorem test_movn :
    reads (runW (base |> x 1 0x9 |> x 2 0x7 |> x 3 0x0) 0x0043080B) (fun t => readGpr t 1) = some 0x9 := by decide

-- Set on condition (spec/46_set_on_condition.md)

/-- SC-3: SLT R1, R2, R3 (R216). -/
theorem test_slt :
    reads (runW (base |> x 2 0x8000000000000000 |> x 3 0x7FFFFFFFFFFFFFFF) 0x0043082A) (fun t => readGpr t 1)
      = some 0x1 := by decide

/-- SC-4: SLTU R1, R2, R3 (R217). -/
theorem test_sltu :
    reads (runW (base |> x 2 0x8000000000000000 |> x 3 0x7FFFFFFFFFFFFFFF) 0x0043082B) (fun t => readGpr t 1)
      = some 0x0 := by decide

/-- SC-6: SLTI R1, R2, -1 (R218). -/
theorem test_slti : reads (runW (base |> x 2 0xFFFFFFFFFFFFFFFE) 0x2841FFFF) (fun t => readGpr t 1) = some 0x1 := by decide

/-- SC-11: SLTIU R1, R2, -32768 (R219). -/
theorem test_sltiu : reads (runW (base |> x 2 0xFFFFFFFFFFFF7FFF) 0x2C418000) (fun t => readGpr t 1) = some 0x1 := by decide

-- Floating point (spec/47_floating_point.md)

/-- FP-2: ADD.D F2, F4, F6 (R226). -/
theorem test_add_d :
    reads (runW (base |> f 4 0x3FB999999999999A |> f 6 0x3FC999999999999A) 0x46262080) (fun t => readFpr t 2)
      = some 0x3FD3333333333334 := by decide

/-- FP-14: ADD.S F2, F4, F6 (R227). -/
theorem test_add_s : lowWritten (base |> f 4 0xDEADBEEF3F800000 |> f 6 0x33800000) 0x46062080 2 0x3F800000 := rfl

/-- FP-15: ADD.S F2, F4, F6 (R227). -/
theorem test_add_s_2 : lowWritten (base |> f 4 0x3F800000 |> f 6 0x33800080) 0x46062080 2 0x3F800001 := rfl

/-- FP-21: ADD.PS F2, F4, F6 (R228). -/
theorem test_add_ps :
    reads (runW (base |> f 4 0x3F80000040000000 |> f 6 0x4040000040800000) 0x46C62080) (fun t => readFpr t 2)
      = some 0x4080000040C00000 := by decide

/-- FP-6: SUB.D F2, F4, F6 (R229). -/
theorem test_sub_d :
    reads (runW (base |> f 4 0x8000000000000000 |> f 6 0x0) 0x46262081) (fun t => readFpr t 2)
      = some 0x8000000000000000 := by decide

/-- FP-16: SUB.S F2, F4, F6 (R230). -/
theorem test_sub_s : lowWritten (base |> f 4 0x3FC00000 |> f 6 0x40100000) 0x46062081 2 0xBF400000 := rfl

/-- FP-22: SUB.PS F2, F4, F6 (R231). -/
theorem test_sub_ps :
    reads (runW (base |> f 4 0x3F80000040000000 |> f 6 0x4040000040800000) 0x46C62081) (fun t => readFpr t 2)
      = some 0xC0000000C0000000 := by decide

/-- FP-8: MUL.D F2, F4, F6 (R232). -/
theorem test_mul_d :
    reads (runW (base |> f 4 0x8000000000000000 |> f 6 0x4014000000000000) 0x46262082) (fun t => readFpr t 2)
      = some 0x8000000000000000 := by decide

/-- FP-18: MUL.S F2, F4, F6 (R233). -/
theorem test_mul_s : lowWritten (base |> f 4 0x7F7FFFFF |> f 6 0x40000000) 0x46062082 2 0x7F800000 := rfl

/-- FP-23: MUL.PS F2, F4, F6 (R234). -/
theorem test_mul_ps :
    reads (runW (base |> f 4 0x3FC0000040000000 |> f 6 0x40400000C0800000) 0x46C62082) (fun t => readFpr t 2)
      = some 0x40900000C1000000 := by decide

/-- FP-9: DIV.D F2, F4, F6 (R235). -/
theorem test_div_d :
    reads (runW (base |> f 4 0x3FF0000000000000 |> f 6 0x4008000000000000) 0x46262083) (fun t => readFpr t 2)
      = some 0x3FD5555555555555 := by decide

/-- FP-11: DIV.D F2, F4, F6 (R235). -/
theorem test_div_d_2 :
    reads (runW (base |> f 4 0xBFF0000000000000 |> f 6 0x0) 0x46262083) (fun t => readFpr t 2)
      = some 0xFFF0000000000000 := by decide

/-- FP-19: DIV.S F2, F4, F6 (R236). -/
theorem test_div_s : lowWritten (base |> f 4 0x3F800000 |> f 6 0x40400000) 0x46062083 2 0x3EAAAAAB := rfl

/-- FP-24: DIV.PS F2, F4, F6 (R237). -/
theorem test_div_ps :
    reads (runW (base |> f 4 0x3F80000040C00000 |> f 6 0x4080000040400000) 0x46C62083) (fun t => readFpr t 2)
      = some 0x3E80000040000000 := by decide

/-- FP-25: MADD.D F2, F8, F4, F6 (R238). -/
theorem test_madd_d :
    reads (runW (base |> f 8 0x3FF0000000000000 |> f 4 0x4000000000000000 |> f 6 0x4008000000000000) 0x4D0620A1)
        (fun t => readFpr t 2)
      = some 0x401C000000000000 := by decide

/-- FP-27: MADD.S F2, F8, F4, F6 (R239). -/
theorem test_madd_s : lowWritten (base |> f 8 0xBF801000 |> f 4 0x3F800800 |> f 6 0x3F800800) 0x4D0620A0 2 0x0 := rfl

/-- FP-28: MADD.PS F2, F8, F4, F6 (R240). -/
theorem test_madd_ps :
    reads (runW (base |> f 8 0x3F80000041200000 |> f 4 0x4000000040400000 |> f 6 0x4040000040800000) 0x4D0620A6)
        (fun t => readFpr t 2)
      = some 0x40E0000041B00000 := by decide

/-- FP-32: CVT.S.D F2, F4 (R242). -/
theorem test_cvt_s_d : lowWritten (base |> f 4 0x3FF0000030000000) 0x462020A0 2 0x3F800002 := rfl

/-- FP-34: CVT.S.W F2, F4 (R243). -/
theorem test_cvt_s_w : lowWritten (base |> f 4 0x1000001) 0x468020A0 2 0x4B800000 := rfl

/-- FP-36: CVT.S.L F2, F4 (R244). -/
theorem test_cvt_s_l : lowWritten (base |> f 4 0x100000001) 0x46A020A0 2 0x4F800000 := rfl

/-- FP-40: CVT.D.S F2, F4 (R245). -/
theorem test_cvt_d_s :
    reads (runW (base |> f 4 0x1) 0x460020A1) (fun t => readFpr t 2) = some 0x36A0000000000000 := by decide

/-- FP-41: CVT.D.W F2, F4 (R246). -/
theorem test_cvt_d_w :
    reads (runW (base |> f 4 0x80000000) 0x468020A1) (fun t => readFpr t 2) = some 0xC1E0000000000000 := by decide

/-- FP-44: CVT.D.L F2, F4 (R247). -/
theorem test_cvt_d_l :
    reads (runW (base |> f 4 0x20000000000003) 0x46A020A1) (fun t => readFpr t 2) = some 0x4340000000000002 := by decide

/-- FP-54: CVT.W.S F2, F4 (R248). -/
theorem test_cvt_w_s : lowWritten (base |> f 4 0xC0F00000) 0x460020A4 2 0xFFFFFFF8 := rfl

/-- FP-48: CVT.W.D F2, F4 (R249). -/
theorem test_cvt_w_d : lowWritten (base |> f 4 0xC004000000000000) 0x462020A4 2 0xFFFFFFFE := rfl

/-- FP-59: CVT.L.S F2, F4 (R250). -/
theorem test_cvt_l_s :
    reads (runW (base |> f 4 0x53800000) 0x460020A5) (fun t => readFpr t 2) = some 0x10000000000 := by decide

/-- FP-57: CVT.L.D F2, F4 (R251). -/
theorem test_cvt_l_d :
    reads (runW (base |> f 4 0xBFF8000000000000) 0x462020A5) (fun t => readFpr t 2) = some 0xFFFFFFFFFFFFFFFE := by decide

/-- FC-2: C.LT.S 3, F4, F6 (R254). -/
theorem test_c_lt_s :
    reads (runW (base |> f 4 0x3F800000 |> f 6 0x40000000) 0x4606233C) (fun t => readFcc t 3) = some true := by decide

/-- FC-3: C.LE.S 1, F4, F6 (R255). -/
theorem test_c_le_s :
    reads (runW (base |> f 4 0xFFFFFFFF40000000 |> f 6 0x40000000) 0x4606213E) (fun t => readFcc t 1)
      = some true := by decide

/-- FC-4: C.GT.S F4, F6 (R256). -/
theorem test_c_gt_s :
    reads (runI (base |> f 4 0x40000000 |> f 6 0x3F800000) (.cGtS 0 4 6)) (fun t => readFcc t 0) = some true := by decide

/-- FC-5: C.GE.S F4, F6 (R257). -/
theorem test_c_ge_s :
    reads (runI (base |> f 4 0x7FC00000 |> f 6 0x3F800000) (.cGeS 0 4 6)) (fun t => readFcc t 0) = some false := by decide

/-- FC-7: C.EQ.S F4, F6 (R258). -/
theorem test_c_eq_s :
    reads (runW (base |> f 4 0x7FC00000 |> f 6 0x7FC00000) 0x46062032) (fun t => readFcc t 0) = some false := by decide

/-- FC-9: C.NE.S F4, F6 (R259). -/
theorem test_c_ne_s :
    reads (runI (base |> f 4 0x7FC00000 |> f 6 0x7FC00000) (.cNeS 0 4 6)) (fun t => readFcc t 0) = some true := by decide

/-- FC-1: C.LT.D F4, F6 (R260). -/
theorem test_c_lt_d :
    reads (runW (base |> f 4 0x3FF0000000000000 |> f 6 0x4000000000000000) 0x4626203C) (fun t => readFcc t 0)
      = some true := by decide

/-- FC-6: C.GE.D F4, F6 (R263). -/
theorem test_c_ge_d :
    reads (runI (base |> f 4 0x4000000000000000 |> f 6 0x4000000000000000) (.cGeD 0 4 6)) (fun t => readFcc t 0)
      = some true := by decide

/-- FC-8: C.EQ.D 2, F4, F6 (R264). -/
theorem test_c_eq_d :
    reads (runW (base |> f 4 0x8000000000000000 |> f 6 0x0) 0x46262232) (fun t => readFcc t 2) = some true := by decide

/-- FC-10: C.NE.D F4, F6 (R265). -/
theorem test_c_ne_d :
    reads (runI (base |> f 4 0x3FF0000000000000 |> f 6 0x3FF0000000000000) (.cNeD 0 4 6)) (fun t => readFcc t 0)
      = some false := by decide

/-- CT-22: BC1T t (R266). -/
theorem test_bc1t :
    reads (runW (base |> cc 0 true) 0x45010007) (fun t => (t.pc, t.delay)) = some (0x400020, none) := by decide

/-- CT-51: BC1F 3, t (R267). -/
theorem test_bc1f :
    reads (runW (base |> slots |> cc 3 false) 0x450C0007) (fun t => (t.pc, t.delay))
      = some (0x400004, some 0x400020) := by decide

/-- Section 2.8, the compare table: LE of 2.0 and 2.0. -/
theorem test_c_le_d :
    reads (runW (base |> f 4 0x4000000000000000 |> f 6 0x4000000000000000) 0x4626203E) (fun t => readFcc t 0) = some true := by
  decide

/-- Section 2.8, the compare table: GT of 3.0 and 2.0. -/
theorem test_c_gt_d :
    reads (runI (base |> f 4 0x4008000000000000 |> f 6 0x4000000000000000) (.cGtD 0 4 6)) (fun t => readFcc t 0)
      = some true := by decide

-- Special, and exceptions of a fetch (spec/48_special.md, spec/60_exceptions.md)

/-- EX-3: TRAP (R296 (a)). -/
theorem test_trap :
    reads (runW (base |> slots |> at_ 0x400004 |> pending 0x400020) 0x0000000C)
        (fun t => (t.pc, t.epc, t.status.extractLsb' 0 5, t.cause.excCode, t.cause.bd))
      = some (0xFFFFFFFF80000180, 0x400000, 0b10010, 8, true) := by decide

/-- EX-13: ERET (R281). -/
theorem test_eret :
    reads (runW (kern |> status 0b10010 |> at_ 0xFFFFFFFF800001A4 |> epc 0x40000C) 0x42000018)
        (fun t => (t.pc, t.epc, t.status.extractLsb' 0 5))
      = some (0x40000C, 0x40000C, 0b10000) := by decide

/-- EX-16: ERET (R281). -/
theorem test_eret_2 :
    refusal (runW (kern |> status 0b10100 |> at_ 0xFFFFFFFF800001A4 |> epc 0x40000C) 0x42000018)
      = some .eretWithErl := by decide

/-- EX-18: NOP (R282). -/
theorem test_nop :
    reads (runW base 0x00000000) (fun t => (t.pc, t.status.extractLsb' 0 5)) = some (0x400004, 0b10000) := by decide

/-- EX-8: (fetch) (R68, R291). -/
theorem test_fetch :
    reads (step (base |> at_ 0x12345679 |> x 5 0x12345679))
        (fun t => (t.pc, t.epc, t.status.extractLsb' 0 5, t.cause.excCode, t.cause.bd, t.badVAddr))
      = some (0xFFFFFFFF80000180, 0x12345679, 0b10010, 4, false, 0x12345679) := by decide

/-- EX-9: (fetch) (R68, R292). -/
theorem test_fetch_2 :
    reads (step (base |> at_ 0x600000 |> without 0x600000))
        (fun t => (t.pc, t.epc, t.status.extractLsb' 0 5, t.cause.excCode, t.cause.bd))
      = some (0xFFFFFFFF80000180, 0x600000, 0b10010, 6, false) := by decide

-- Launch (R331)

/-- The launch of program P7d of spec/95_test_vectors.md. -/
def sample : Launch where
  text := [(0x400000, .word 0x64010001), (0x400004, .word 0x40026000), (0x400008, .word 0x03E00008), (0x40000C, .word 0)]
  data := [(0x10000000, 0x55)]
  entryPc := 0x400000
  entryMode := .user
  gprs := [(31, 0x500000)]
  fprs := [(2, 0x3FF0000000000000)]
  params := Config.defaults
  endPc := 0x500000

theorem test_launch :
    launchOk sample = true ∧ mode (launch sample State.reset) = some .user ∧
    reads (step (launch sample State.reset)) (fun t => (readGpr t 1, t.pc)) = some (1, 0x400004) := by decide

/-- The checks of a launch: END_PC inside the text, ENTRY_PC outside it, a word outside the card. -/
theorem test_launch_checks :
    launchOk { sample with endPc := 0x400004 } = false ∧ launchOk { sample with entryPc := 0x400010 } = false ∧
    launchOk { sample with text := [(0x400000, .word 0x20)] } = false := by decide

-- A witness for every statement that has hypotheses: they hold together, at the ends of their ranges.

/-- The highest pc from which pc + 4 does not wrap, and the wrapping pc in a delay slot, from which pc does not wrap either. -/
def top : State := base |> at_ 0xFFFFFFFFFFFFFFF8
def topSlot : State := base |> slots |> at_ 0xFFFFFFFFFFFFFFFC |> pending 0x400020
/-- The pc from which a sequential instruction wraps. -/
def wrapping : State := base |> at_ 0xFFFFFFFFFFFFFFFC
/-- The next state of an outcome that is one. -/
def nextOf (r : Result) : State :=
  match r with
  | .next t => t
  | _ => base

/-- An outcome from which something is read is a next state. -/
theorem answers {r : Result} (h : reads r (fun _ => true) = some true) : ∃ t, r = .next t := by
  cases r with
  | next t => exact ⟨t, rfl⟩
  | fault e => cases h
  | refused q => cases h

theorem witness_CanAdvance : CanAdvance top ∧ CanAdvance topSlot ∧ ¬CanAdvance wrapping := by decide

theorem witness_DecodeUndoesEncode : (Instr.bne 31 30 0xFFFF).wellFormed = true := by decide

theorem witness_EncodeUndoesDecode : decode 0xFFFFFFFF = .ok (.sd 31 0xFFFF 31) ∧ decode 0 = .ok .nop := by decide

theorem witness_AtMostOneRowMatches :
    (∃ r ∈ opcodeRows, r.matches 0 = true) ∧ ∀ r ∈ opcodeRows, r.matches 0x20 = false := by decide

theorem witness_CompareConditionsInWords : CanAdvance top ∧ CanAdvance topSlot := by decide

theorem witness_BranchOffsetReachesLabel :
    assembleBranch 0x400000 0x420000 = .ok 0x7FFF ∧ assembleBranch 0x400000 0x3E0004 = .ok 0x8000 ∧
    assembleBranch 0x400000 0x420004 = .error .outOfReach ∧ assembleBranch 0x400000 0x400006 = .error .outOfReach := by decide

theorem witness_JumpFieldReachesLabel :
    assembleJump 0x400000 0xFFFFFFC = .ok 0x3FFFFFF ∧ (0xFFFFFFC : Word).toNat % 4 = 0 ∧
    assembleJump 0x400000 0x10000000 = .error .outOfReach := by decide

theorem witness_StepRunsDecodedInstruction :
    (FetchOk (placeWord base 0x80410000) ∧ textAt (placeWord base 0x80410000) 0x400000 = some ⟨0x400000, none⟩ ∧
      WordAtPc (placeWord base 0x80410000) 0x80410000 ∧ decode 0x80410000 = .ok (.lb 1 0 2)) ∧
    (FetchOk (placeWord base 0x20) ∧ textAt (placeWord base 0x20) 0x400000 = some ⟨0x400000, none⟩ ∧
      WordAtPc (placeWord base 0x20) 0x20 ∧ decode 0x20 = .error .wordOutsideCard) ∧
    (FetchOk (placeInstr base (.cNeS 0 4 6)) ∧
      textAt (placeInstr base (.cNeS 0 4 6)) 0x400000 = some ⟨0x400000, some (.cNeS 0 4 6)⟩) ∧
    (FetchOk base ∧ textAt base 0x400000 = none) := by decide

theorem witness_PlacedWordRuns :
    FetchOk base ∧ FetchOk (base |> little |> at_ 0xFFFFFFFFFFFFFFFC) ∧ decode 0 = .ok .nop ∧
    decode 0x20 = .error .wordOutsideCard := by decide

theorem witness_FetchChecksInOrder :
    (atEnd (base |> at_ 0x400001) = false ∧ mode (base |> at_ 0x400001) ≠ none ∧ (0x400001 : Word).toNat % 4 ≠ 0) ∧
    (atEnd (base |> guarded 0x400000) = false ∧ mode (base |> guarded 0x400000) = some .user ∧
      (0x400000 : Word).toNat % 4 = 0 ∧ userAccessible (base |> guarded 0x400000) 0x400000 = false) ∧
    (atEnd (kern |> without 0x400003) = false ∧ mode (kern |> without 0x400003) = some .kernel ∧
      backed (kern |> without 0x400003) (0x400000 + BitVec.ofNat 64 3) = false) ∧
    (FetchOk (placeWord base 0) ∧ textAt (placeWord base 0) 0x400000 = some ⟨0x400000, none⟩ ∧ WordAtPc (placeWord base 0) 0) := by
  decide

theorem witness_RunEndsExactlyAtEndPc :
    step (base |> endAt 0x400000) = .fault .exited ∧ (base |> endAt 0x400000 |> pending 0).delay ≠ none := ⟨rfl, by decide⟩

theorem witness_ModeIsAFunctionOfStatus :
    mode (kern |> status 0b11010) = some .kernel ∧ mode (kern |> status 0b11100) = some .kernel ∧
    mode (kern |> status 0b00000) = some .kernel ∧ mode (kern |> status 0b10001) = some .user ∧
    (mode (kern |> status 0b01000) = none ∧ atEnd (kern |> status 0b01000) = false) ∧
    (mode (kern |> status 0b11001) = none ∧ atEnd (kern |> status 0b11001) = false) := by decide

theorem witness_StepKeepsInvariant :
    StateInv (placeWord base 0) ∧ (∃ t, step (placeWord base 0) = .next t) ∧ StateInv topSlot :=
  ⟨⟨by decide, by decide, by decide, by decide⟩, answers (by decide), ⟨by decide, by decide, by decide, by decide⟩⟩

theorem witness_LaunchBuildsTheFirstState :
    (∀ p ∈ sample.gprs, p.1 ≠ 30) ∧ (sample.gprs.map Prod.fst).Nodup ∧ (31, 0x500000) ∈ sample.gprs ∧
    (∀ p ∈ sample.fprs, p.1 ≠ 31) ∧ (sample.fprs.map Prod.fst).Nodup ∧ (2, 0x3FF0000000000000) ∈ sample.fprs ∧
    StateInv State.reset :=
  ⟨by simp [sample], by decide, by decide, by simp [sample], by decide, by decide, by decide, by decide, by decide, by decide⟩

theorem witness_StepKeepsProgramAndParameters :
    (∃ t, step (placeWord base 0) = .next t) ∧ ⟨0x400000, none⟩ ∈ (placeWord base 0).text := ⟨answers (by decide), by decide⟩

theorem witness_UserModeLeavesC0Alone :
    mode (placeWord base 0) = some .user ∧ (∃ t, step (placeWord base 0) = .next t) ∧
    mode (placeWord base 0xC) = some .user ∧ (∃ t, step (placeWord base 0xC) = .next t) :=
  ⟨by decide, answers (by decide), by decide, answers (by decide)⟩

theorem witness_UserModeCannotSeeC0 : mode (base |> status 0xFFFFFFFFFFFFFFF1) = some .user := by decide

theorem witness_RegisterZeroReadsZero :
    CanAdvance top ∧ CanAdvance topSlot ∧ AccessOk (addressOf top 0 0xFFFF) 1 top ∧ AccessOk (addressOf top 0 0xFFFE) 2 top ∧
    AccessOk (addressOf top 0 0xFFFC) 4 top ∧ AccessOk (addressOf top 0 0xFFF8) 8 top ∧
    ¬AccessOk (addressOf (top |> guarded 0x8000) 0 0x8000) 1 (top |> guarded 0x8000) ∧
    ¬AccessOk (addressOf top 0 1) 2 top ∧ ¬AccessOk (addressOf top 0 2) 4 top ∧ ¬AccessOk (addressOf top 0 4) 8 top ∧
    (mode kern = some .kernel ∧ C0Number 8 ∧ C0Number 14 ∧ CanAdvance kern) ∧ ¬(mode base = some .kernel ∧ C0Number 8) ∧
    ¬(mode kern = some .kernel ∧ C0Number 15) :=
  ⟨by decide, by decide, by decide, by decide, by decide, by decide, by decide, by decide, by decide, by decide, by decide,
    by decide, by decide⟩

theorem witness_TrapIsTheOnlySourceOfTrap :
    base.params.hostTraps = false ∧ (base |> host).params.hostTraps = true ∧
    exec (.trap 0xFFFFF) (base |> host) = .fault (.trapped .trap 0x400000) ∧
    (∀ code, Instr.eret ≠ .trap code) ∧ (∃ t, exec .eret base = .next t) ∧ (∃ t, exec .eret kern = .next t) :=
  ⟨rfl, rfl, rfl, nofun, answers (by decide), answers (by decide)⟩

theorem witness_ExceptionsHaveTheirCauses :
    exec (.lh 1 1 0) (base |> host) = .fault (.trapped (.addressErrorLoad 1) 0x400000) ∧
    exec (.lb 1 0xFFFF 0) (base |> host |> guarded 0x8000000000000000)
      = .fault (.trapped (.addressErrorLoad 0xFFFFFFFFFFFFFFFF) 0x400000) ∧
    exec (.sd 1 4 0) (base |> host) = .fault (.trapped (.addressErrorStore 4) 0x400000) ∧
    exec (.sS 1 0 0) (base |> host |> without 3) = .fault (.trapped (.busErrorData 0) 0x400000) ∧
    exec (.trap 0) (base |> host) = .fault (.trapped .trap 0x400000) ∧
    exec (.mfc0 1 31) (base |> host) = .fault (.trapped (.coprocessorUnusable 0) 0x400000) ∧
    (∃ t, exec (.sd 1 4 0) base = .next t) ∧ (∃ t, exec (.mtc0 1 14) kern = .next t) :=
  ⟨rfl, rfl, rfl, rfl, rfl, rfl, answers (by decide), answers (by decide)⟩

theorem witness_KernelInstructionsTrapInUserMode :
    kernelInstr (.mfc0 1 31) = true ∧ kernelInstr .eret = true ∧ mode base = some .user ∧ base.delay = none ∧
    mode topSlot = some .user := by decide

theorem witness_EretReturnsToEpc :
    topSlot.delay ≠ none ∧ (base.delay = none ∧ mode base = some .user) ∧
    ((kern |> status 0b10100).delay = none ∧ mode (kern |> status 0b10100) = some .kernel ∧
      (kern |> status 0b10100).status.getLsbD 2 = true) ∧
    ((kern |> status 0b10010).delay = none ∧ mode (kern |> status 0b10010) = some .kernel ∧
      (kern |> status 0b10010).status.getLsbD 2 = false ∧ (kern |> status 0b10010).status.extractLsb' 3 2 = 0b10) ∧
    (mode (kern |> status 0b00010) = some .kernel ∧ (kern |> status 0b00010).status.extractLsb' 3 2 = 0b00) := by decide

theorem witness_ExceptionThenEretReturns :
    (exl base = false ∧ erl base = false ∧ mode base ≠ none ∧ base.params.hostTraps = false ∧ base.delay = none) ∧
    (exl topSlot = false ∧ erl topSlot = false ∧ mode topSlot ≠ none ∧ topSlot.params.hostTraps = false ∧
      topSlot.delay ≠ none) := by decide

theorem witness_MovesFromC0 :
    mode base = some .user ∧ mode kern = some .kernel ∧ CanAdvance kern ∧ ¬C0Number 7 ∧ ¬C0Number 9 ∧ ¬C0Number 15 ∧
    C0Number 8 ∧ C0Number 12 ∧ C0Number 13 ∧ C0Number 14 := by decide

theorem witness_MovesToC0 :
    mode base = some .user ∧ mode kern = some .kernel ∧ CanAdvance kern ∧ ¬C0Number 0 ∧ ¬C0Number 31 ∧
    ((8 : CReg) = 8 ∨ (8 : CReg) = 13) ∧ ((13 : CReg) = 8 ∨ (13 : CReg) = 13) := by decide

theorem witness_AddAndSubtract : CanAdvance top ∧ CanAdvance topSlot := by decide

theorem witness_MultiplyGivesExactProduct : CanAdvance top ∧ CanAdvance topSlot := by decide

theorem witness_DivideGivesQuotientAndRemainder :
    (CanAdvance (top |> x 1 0x8000000000000000 |> x 2 1) ∧ readGpr (top |> x 1 0x8000000000000000 |> x 2 1) 2 ≠ 0 ∧
      ¬(readGpr (top |> x 1 0x8000000000000000 |> x 2 1) 1 = 0x8000000000000000 ∧
        readGpr (top |> x 1 0x8000000000000000 |> x 2 1) 2 = 0xFFFFFFFFFFFFFFFF)) ∧
    CanAdvance topSlot := by decide

theorem witness_MultiplyAccumulate :
    (base.params.maddMode = .mips32 ∧ readGpr (base |> x 1 0x80000000) 1
      ≠ ((readGpr (base |> x 1 0x80000000) 1).extractLsb' 0 32).signExtend 64) ∧
    (CanAdvance base ∧ readGpr (base |> x 1 0xFFFFFFFF80000000) 1
      = ((readGpr (base |> x 1 0xFFFFFFFF80000000) 1).extractLsb' 0 32).signExtend 64 ∧
      readGpr (base |> x 1 0x7FFFFFFF) 1 = ((readGpr (base |> x 1 0x7FFFFFFF) 1).extractLsb' 0 32).signExtend 64) ∧
    ((base |> wide).params.maddMode = .wide128 ∧ CanAdvance (base |> wide)) := by decide

theorem witness_HiLoMoves : CanAdvance top ∧ CanAdvance topSlot := by decide

theorem witness_FloatingPointMoves : CanAdvance top ∧ CanAdvance topSlot := by decide

theorem witness_LogicalInstructions : CanAdvance top ∧ CanAdvance topSlot := by decide

theorem witness_ShiftInstructions :
    CanAdvance top ∧ CanAdvance topSlot ∧ (0 : Nat) < 64 ∧ (63 : Nat) < 64 ∧ 63 + (31 : Shamt).toNat ≥ 64 ∧
    32 + (31 : Shamt).toNat < 64 := by decide

theorem witness_SetOnCondition : CanAdvance top ∧ CanAdvance topSlot := by decide

theorem witness_ConditionalMoves :
    CanAdvance top ∧ readGpr top 0 = 0 ∧ CanAdvance (top |> x 1 1) ∧ readGpr (top |> x 1 1) 1 ≠ 0 := by decide

theorem witness_LoadUpperImmediate : CanAdvance top ∧ CanAdvance topSlot := by decide

theorem witness_NopOnlyAdvances : CanAdvance top ∧ CanAdvance topSlot := by decide

/-- For the loads: a checked access at the top of the address space, and each stop in each order of the checks. -/
theorem witness_IntegerLoads :
    (AccessOk (addressOf top 0 0xFFFF) 1 top ∧ AccessOk (addressOf top 0 0xFFFE) 2 top ∧
      AccessOk (addressOf top 0 0xFFFC) 4 top ∧ AccessOk (addressOf top 0 0xFFF8) 8 top ∧ CanAdvance top) ∧
    (mode top ≠ none ∧ (addressOf top 0 7).toNat % 8 ≠ 0 ∧ (addressOf top 0 1).toNat % 2 ≠ 0) ∧
    (mode (top |> guarded 0x8000) = some .user ∧
      userAccessible (top |> guarded 0x8000) (addressOf (top |> guarded 0x8000) 0 0x8000) = false) ∧
    (mode kern = some .kernel ∧ (addressOf kern 0 0).toNat % 8 = 0 ∧
      backed (kern |> without 7) (addressOf kern 0 0 + BitVec.ofNat 64 7) = false) := by decide

theorem witness_FloatingPointLoads :
    (AccessOk (addressOf top 0 0xFFFC) 4 top ∧ AccessOk (addressOf top 0 0xFFF8) 8 top ∧ CanAdvance top) ∧
    (mode top ≠ none ∧ (addressOf top 0 3).toNat % 4 ≠ 0 ∧ (addressOf top 0 4).toNat % 8 ≠ 0) ∧
    (mode kern = some .kernel ∧ (addressOf kern 0 0).toNat % 4 = 0 ∧
      backed (kern |> without 3) (addressOf kern 0 0 + BitVec.ofNat 64 3) = false) := by decide

/-- For the stores: next to the program text, inside it, and each stop. -/
theorem witness_IntegerStores :
    (AccessOk (addressOf (placeWord base 0 |> x 1 0x400000) 1 4) 4 (placeWord base 0 |> x 1 0x400000) ∧
      OutsideText (addressOf (placeWord base 0 |> x 1 0x400000) 1 4) 4 (placeWord base 0 |> x 1 0x400000) ∧
      CanAdvance (placeWord base 0 |> x 1 0x400000)) ∧
    (AccessOk (addressOf (placeWord base 0 |> x 1 0x400000) 1 3) 1 (placeWord base 0 |> x 1 0x400000) ∧
      inText (placeWord base 0) (0x400003 + BitVec.ofNat 64 0) = true) ∧
    (AccessOk (addressOf top 0 0xFFFE) 2 top ∧ OutsideText (addressOf top 0 0xFFFE) 2 top) ∧
    (AccessOk (addressOf top 0 0xFFF8) 8 top ∧ OutsideText (addressOf top 0 0xFFF8) 8 top ∧ CanAdvance top) ∧
    (mode top ≠ none ∧ (addressOf top 0 7).toNat % 8 ≠ 0) ∧
    (mode kern = some .kernel ∧ (addressOf kern 0 0).toNat % 8 = 0 ∧
      backed (kern |> without 7) (addressOf kern 0 0 + BitVec.ofNat 64 7) = false) := by decide

theorem witness_FloatingPointStores :
    (AccessOk (addressOf (placeWord base 0 |> x 1 0x400000) 1 8) 8 (placeWord base 0 |> x 1 0x400000) ∧
      OutsideText (addressOf (placeWord base 0 |> x 1 0x400000) 1 8) 8 (placeWord base 0 |> x 1 0x400000) ∧
      CanAdvance (placeWord base 0 |> x 1 0x400000)) ∧
    (AccessOk (addressOf (placeWord base 0 |> x 1 0x400000) 1 0) 4 (placeWord base 0 |> x 1 0x400000) ∧
      inText (placeWord base 0) (0x400000 + BitVec.ofNat 64 0) = true) ∧
    (AccessOk (addressOf top 0 0xFFFC) 4 top ∧ OutsideText (addressOf top 0 0xFFFC) 4 top ∧ CanAdvance top) ∧
    (mode top ≠ none ∧ (addressOf top 0 2).toNat % 4 ≠ 0) ∧
    (mode kern = some .kernel ∧ (addressOf kern 0 0).toNat % 4 = 0 ∧
      backed (kern |> without 3) (addressOf kern 0 0 + BitVec.ofNat 64 3) = false) := by decide

/-- SD R1, 0(R2), then a read of the last byte, of the whole and of the upper word of what was stored, in both byte orders. -/
theorem witness_DoubleWordReadBackInParts :
    ∀ s ∈ [base |> x 1 0x8091A2B3C4D5E6F7 |> x 2 0x10000000, base |> little |> x 1 0x8091A2B3C4D5E6F7 |> x 2 0x10000000],
      (∃ t, exec (.sd 1 0 2) s = .next t) ∧ AccessOk (addressOf s 2 0) 8 s ∧
      mode (nextOf (exec (.sd 1 0 2) s)) = some .user ∧
      (∀ i < 8, userAccessible (nextOf (exec (.sd 1 0 2) s)) (addressOf s 2 0 + BitVec.ofNat 64 i) = true) ∧
      CanAdvance (nextOf (exec (.sd 1 0 2) s)) ∧
      addressOf (nextOf (exec (.sd 1 0 2) s)) 2 7 = addressOf s 2 0 + BitVec.ofNat 64 7 ∧
      addressOf (nextOf (exec (.sd 1 0 2) s)) 2 0 = addressOf s 2 0 ∧
      addressOf (nextOf (exec (.sd 1 0 2) s)) 2 4 = addressOf s 2 0 + 4 := by
  simp only [List.forall_mem_cons, List.not_mem_nil, false_implies, implies_true, and_true]
  exact ⟨⟨answers (by decide), by decide⟩, ⟨answers (by decide), by decide⟩⟩

theorem witness_JumpsAndLinks :
    (CanTransfer (base |> at_ 0xFFFFFF8) ∧ ¬(base |> at_ 0xFFFFFF8).pc.extractLsb' 0 28 = 0xFFFFFFC) ∧
    (CanTransfer (base |> slots |> at_ 0xFFFFFFFFFFFFFFF8) ∧
      ¬(base |> at_ 0xFFFFFFFFFFFFFFF8).pc.extractLsb' 0 28 = 0xFFFFFFC) ∧
    ((base |> at_ 0xFFFFFFC).delay = none ∧ (base |> at_ 0xFFFFFFC).pc.extractLsb' 0 28 = 0xFFFFFFC) ∧
    (CanTransfer wrapping ∧ (30 : Reg) ≠ 31) := by decide

/-- BLTZ taken and not taken, without and with a delay slot, at the last pc that does not wrap. -/
theorem witness_IntegerBranches :
    (BranchRoom ((readGpr (top |> x 1 0xFFFFFFFFFFFFFFFF) 1).toInt < 0) 0 (top |> x 1 0xFFFFFFFFFFFFFFFF) ∧
      (readGpr (top |> x 1 0xFFFFFFFFFFFFFFFF) 1).toInt < 0) ∧
    (BranchRoom ((readGpr top 1).toInt < 0) 0x7FFF top ∧ ¬(readGpr top 1).toInt < 0) ∧
    (BranchRoom ((readGpr (top |> slots) 0).toInt ≤ 0) 0x8000 (top |> slots) ∧ (readGpr (top |> slots) 0).toInt ≤ 0) ∧
    (BranchRoom (readGpr (base |> slots |> at_ 0xFFFFFFFFFFFFFFF4) 0 ≠ readGpr (base |> slots) 0) 0x7FFF
      (base |> slots |> at_ 0xFFFFFFFFFFFFFFF4)) := by decide

theorem witness_FloatingPointBranches :
    (BranchRoom (readFcc (top |> cc 7 true) 7 = true) 0 (top |> cc 7 true) ∧ readFcc (top |> cc 7 true) 7 = true) ∧
    (BranchRoom (readFcc (top |> cc 7 true) 7 = false) 0x7FFF (top |> cc 7 true) ∧
      ¬readFcc (top |> cc 7 true) 7 = false) := by decide

theorem witness_NoControlTransferInDelaySlot :
    controlTransfer .eret = true ∧ controlTransfer (.bc1f 7 0) = true ∧ topSlot.delay ≠ none ∧
    controlTransfer (.movz 1 2 3) = false := ⟨rfl, rfl, nofun, rfl⟩

theorem witness_NextPcOfEveryInstruction :
    (∃ t, exec (.trap 0) base = .next t) ∧ (∃ t, exec .eret (kern |> status 0b10010) = .next t) ∧
    (∃ t, exec (.jr 31) base = .next t) ∧ (∃ t, exec (.beq 1 1 0) (base |> slots) = .next t) ∧
    (∃ t, exec (.bne 1 1 0) base = .next t) ∧ (∃ t, exec .nop topSlot = .next t) :=
  ⟨answers (by decide), answers (by decide), answers (by decide), answers (by decide), answers (by decide), answers (by decide)⟩

/-- A wrap of each kind: after a sequential instruction, of the target of a branch taken, after the slot of a branch not taken,
and of the slot of a jump. -/
theorem witness_WrapOfPcIsRefused :
    (ReachesAdvance .nop wrapping ∧ WrapsPc .nop wrapping ∧ exec .nop wrapping = .refused .pcWraps) ∧
    exec (.beq 0 0 1) top = .refused .pcWraps ∧ exec (.bc1t 7 0x7FFF) (top |> slots) = .refused .pcWraps ∧
    exec (.jr 31) (wrapping |> slots) = .refused .pcWraps ∧ exec (.sb 0 0 0) wrapping = .refused .pcWraps :=
  ⟨⟨⟨nofun, nofun⟩, (by decide : ¬CanAdvance wrapping), rfl⟩, rfl, rfl, rfl, rfl⟩

/-- A jump, a branch taken and a branch not taken, with a slot instruction that completes and one that raises. -/
theorem witness_DelaySlotRunsBeforeTheTarget :
    ((base |> slots).params.delaySlot = true ∧ exl (base |> slots) = false) ∧
    (controlTransfer (.jal 0x3FFFFFF) = true ∧ ∃ t, exec (.jal 0x3FFFFFF) (base |> slots) = .next t ∧
      ∃ u, exec (.trap 0) t = .next u) ∧
    (controlTransfer (.beq 0 0 0x8000) = true ∧ ∃ t, exec (.beq 0 0 0x8000) (base |> slots) = .next t ∧
      ∃ u, exec .nop t = .next u) ∧
    (controlTransfer (.bc1t 7 0) = true ∧ ∃ t, exec (.bc1t 7 0) (base |> slots) = .next t ∧ ∃ u, exec .nop t = .next u) :=
  ⟨by decide, ⟨rfl, _, rfl, _, rfl⟩, ⟨rfl, _, rfl, _, rfl⟩, ⟨rfl, _, rfl, _, rfl⟩⟩

/-- Both ends of CanAdvance, and a state whose record FP is not the default one. -/
theorem witness_FloatingPointArithmetic :
    CanAdvance top ∧ CanAdvance topSlot ∧
    CanAdvance { base with params := { base.params with fp := { functions := .other 0 } } } := by decide

theorem witness_FloatingPointMultiplyAdd :
    CanAdvance top ∧ top.params.fp.fused = false ∧
    ∃ s : State, CanAdvance s ∧ s.params.fp.fused = true :=
  ⟨by decide, rfl, { base with params := { base.params with fp := { fused := true } } }, by decide, rfl⟩

theorem witness_Conversions : CanAdvance top ∧ CanAdvance topSlot := by decide

theorem witness_ComparesByTheExtendedNumbers : CanAdvance top ∧ CanAdvance topSlot := by decide

/-- The least positive single and double, the zeros of both signs, and integers at the ends of their ranges. -/
theorem witness_RoundsOnceCorrectly :
    ({} : FpRecord).functions = .ieee ∧ ({} : FpRecord).flush = false ∧
    finiteValue single (1 : BitVec 32).toNat = some (ratOf false 1 (-149)) ∧ ratOf false 1 (-149) ≠ 0 ∧
    finiteValue double (1 : Word).toNat = some (ratOf false 1 (-1074)) ∧ ratOf false 1 (-1074) ≠ 0 ∧
    (finiteValue single (0x80000000 : BitVec 32).toNat = some (ratOf true 0 (-149)) ∧ ratOf true 0 (-149) = 0 ∧
      (0x80000000 : BitVec 32).msb = true ∧ (0 : BitVec 32).msb = false) ∧
    (finiteValue double (0 : Word).toNat = some (ratOf false 0 (-1074)) ∧ ratOf false 0 (-1074) = 0 ∧
      (0 : Word).msb ≠ (0x8000000000000000 : Word).msb) ∧
    (0x80000000 : BitVec 32) ≠ 0 ∧ (0x80000000 : BitVec 32).toInt ≠ 0 ∧ (0xFFFFFFFFFFFFFFFF : Word) ≠ 0 :=
  ⟨rfl, rfl, rfl, by simp [ratOf], rfl, by simp [ratOf], ⟨rfl, by simp [ratOf], rfl, rfl⟩,
    ⟨rfl, by simp [ratOf], by decide⟩, by decide, by decide, by decide⟩

/-- NaN, the infinities, the zeros and 1.0 in both formats, 2.5 rounded to the even 2, and a denormal seen as zero. -/
theorem witness_SpecialOperands :
    ({} : FpRecord).functions = .ieee ∧
    isNan single (0x7FC00000 : BitVec 32).toNat ∧ isNan double (0x7FF8000000000000 : Word).toNat ∧
    isInf single false (0x7F800000 : BitVec 32).toNat ∧ isInf single true (0xFF800000 : BitVec 32).toNat ∧
    isInf double false (0x7FF0000000000000 : Word).toNat ∧ isInf double true (0xFFF0000000000000 : Word).toNat ∧
    isZero single true (seen32 {} 0x80000000).toNat ∧ isZero double false (seen64 {} 0).toNat ∧
    isZero single true (seen32 { flush := true, flushOperands := true } 0x807FFFFF).toNat ∧
    unpack single (seen32 {} 0x3F800000).toNat = .fin false 8388608 (-23) ∧
    (finiteValue double (seen64 {} 0x3FF0000000000000).toNat = some (ratOf false 4503599627370496 (-52)) ∧
      ratOf false 4503599627370496 (-52) ≠ 0) ∧
    (unpack single (seen32 {} 0x40200000).toNat = .fin false 10485760 (-22) ∧
      RoundsToInt .nearestEven (ratOf false 10485760 (-22)) 2) :=
  ⟨rfl, rfl, rfl, rfl, rfl, rfl, rfl, ⟨_, rfl⟩, ⟨_, rfl⟩, ⟨_, rfl⟩, rfl, ⟨rfl, by simp [ratOf]⟩, rfl,
    .inr ⟨by norm_num [ratOf], by norm_num⟩⟩

/-- The largest denormal is flushed and the smallest normal number is not, and a flushing record is a default one. -/
theorem witness_FlushReplacesDenormals :
    ({ flush := true } : FpRecord).functions = .ieee ∧ ({ flush := true } : FpRecord).flush = true ∧
    ({} : FpRecord) = { ({ flush := true } : FpRecord) with flush := false } ∧
    flushed32 0x807FFFFF = 0x80000000 ∧ flushed32 0x00800000 = 0x00800000 ∧
    flushed64 0x800FFFFFFFFFFFFF = 0x8000000000000000 ∧ flushed64 0x0010000000000000 = 0x0010000000000000 := by decide
end Sys2Proof.Tests
end

section
/-! SUPPORT. What a step keeps of the state (spec/10_state.md R31, R47, R48): said once in `StepKeeps`, from which the invariant
and the frame of the program text follow. -/

namespace Sys2Proof.Machine

/-- What every instruction and every step keeps from `s` to `t`: what is fixed for a run, the storage behind x[0], the canonical
form of memory and every byte of the program text; a slot that is pending in `t` stands after its branch. -/
structure StepKeeps (s t : State) : Prop where
  params : t.params = s.params
  text : t.text = s.text
  zero : s.gpr[0] = 0 → t.gpr[0] = 0
  memWf : s.mem.wf → t.mem.wf
  textBytes : ∀ slot ∈ s.text, ∀ i < 4, t.mem.lookup (slot.addr.toNat + i) = s.mem.lookup (slot.addr.toNat + i)
  slot : t.delay = none ∨ (s.params.delaySlot = true ∧ 4 ≤ t.pc.toNat)

/-- `t` is `u` but for pc, delay and Status, and no slot is pending in `t` but the one after a control transfer at `u.pc`. -/
structure MovesPc (u t : State) : Prop where
  params : t.params = u.params
  text : t.text = u.text
  gpr : t.gpr = u.gpr
  mem : t.mem = u.mem
  slot : t.delay = none ∨ (u.params.delaySlot = true ∧ 4 ≤ t.pc.toNat)

-- Memory

/-- An aligned store outside the program text leaves every byte of every place: it does not run past the last address, and a byte
of it that fell in a place would lie in the text. -/
theorem lookup_storeBytes_outsideText {s : State} {a : Word} {k : Nat} {bs : List Byte} (hk : k = 1 ∨ k = 2 ∨ k = 4 ∨ k = 8)
    (ha : a.toNat % k = 0) (hl : bs.length = k) (ht : someByte a k (inText s) = false)
    {slot : TextSlot} (hslot : slot ∈ s.text) {i : Nat} (hi : i < 4) :
    (s.mem.storeBytes a bs).lookup (slot.addr.toNat + i) = s.mem.lookup (slot.addr.toNat + i) := by
  have hdvd : k ∣ 2 ^ 64 := by obtain rfl | rfl | rfl | rfl := hk <;> decide
  have hpos : 0 < k := by omega
  have hend : a.toNat + k ≤ 2 ^ 64 := by
    have hlast := byteAddr_toNat a (k - 1) k hdvd ha (by omega)
    have hlt := (byteAddr a (k - 1)).isLt
    omega
  rw [Memory.lookup_storeBytes _ _ _ (hl ▸ hend), if_neg]
  rintro ⟨hlo, hhi⟩
  have hbyte := byteAddr_toNat a (slot.addr.toNat + i - a.toNat) k hdvd ha (by omega)
  have hin : inText s (byteAddr a (slot.addr.toNat + i - a.toNat)) = true := by
    refine List.any_eq_true.mpr ⟨slot, hslot, ?_⟩
    rw [hbyte, Bool.and_eq_true, decide_eq_true_eq, decide_eq_true_eq]
    omega
  have hout := List.any_eq_false.mp ht (slot.addr.toNat + i - a.toNat) (List.mem_range.mpr (by omega))
  exact hout hin

/-- The writes of an instruction keep the canonical form of memory. -/
theorem WritesOf.mem_wf {i : Instr} {s u : State} (h : WritesOf i s u) (hs : s.mem.wf) : u.mem.wf := by
  obtain hm | ⟨a, k, v, -, -, -, hm⟩ := h.mem <;> rw [hm]
  · exact hs
  · exact Memory.wf_storeBytes hs a _

/-- The writes of an instruction keep every byte of every place of the program text. -/
theorem WritesOf.lookup_text {i : Instr} {s u : State} (h : WritesOf i s u) {slot : TextSlot} (hslot : slot ∈ s.text)
    {n : Nat} (hn : n < 4) : u.mem.lookup (slot.addr.toNat + n) = s.mem.lookup (slot.addr.toNat + n) := by
  obtain hm | ⟨a, k, v, ht, ha, hk, hm⟩ := h.mem <;> rw [hm]
  exact lookup_storeBytes_outsideText hk ha (length_bytesOfValue _ _ _) ht hslot hn

-- The move of pc

/-- Where pc + n does not wrap, no smaller step does. -/
theorem fits_mono {s : State} {m n : Nat} (hmn : m ≤ n) (h : fits s n = true) : fits s m = true := by
  have hlt : s.pc.toNat + n < 2 ^ 64 := of_decide_eq_true h
  exact fits_of_lt (by omega)

/-- The address after an instruction that does not wrap lies at 4 or above. -/
theorem four_le_pc_add {s : State} (h : fits s 4 = true) : 4 ≤ (s.pc + 4).toNat := by
  have hlt : s.pc.toNat + 4 < 2 ^ 64 := of_decide_eq_true h
  rw [BitVec.toNat_add, show (4 : Word).toNat = 4 from rfl, Nat.mod_eq_of_lt hlt]
  exact Nat.le_add_left 4 _

theorem movesPc_of_advance {u t : State} (h : advance u = .next t) : MovesPc u t := by
  rw [eq_of_advance h]
  exact ⟨rfl, rfl, rfl, rfl, .inl rfl⟩

theorem movesPc_of_transfer {target : Word} {u t : State} (hd : u.delay = none) (h : transfer target u = .next t) :
    MovesPc u t := by
  unfold transfer at h
  split at h
  · split at h <;> cases h
    exact ⟨rfl, rfl, rfl, rfl, .inr ⟨‹_›, four_le_pc_add ‹_›⟩⟩
  · cases h
    exact ⟨rfl, rfl, rfl, rfl, .inl hd⟩

theorem movesPc_of_notTaken {u t : State} (hd : u.delay = none) (h : notTaken u = .next t) : MovesPc u t := by
  unfold notTaken at h
  split at h
  · split at h <;> cases h
    exact ⟨rfl, rfl, rfl, rfl, .inr ⟨‹_›, four_le_pc_add (fits_mono (by decide : 4 ≤ 8) ‹_›)⟩⟩
  · split at h <;> cases h
    exact ⟨rfl, rfl, rfl, rfl, .inl hd⟩

theorem movesPc_of_branch {c : Bool} {offset : Imm} {u t : State} (h : branch c offset u = .next t) : MovesPc u t := by
  obtain ⟨hd, ⟨-, -, ht⟩ | ⟨-, ht⟩⟩ := branch_cases h
  · exact movesPc_of_transfer hd ht
  · exact movesPc_of_notTaken hd ht

/-- A move of pc alone keeps what a step keeps. -/
theorem MovesPc.stepKeeps {s t : State} (h : MovesPc s t) : StepKeeps s t :=
  ⟨h.params, h.text, fun hz => by rw [h.gpr, hz], fun hm => h.mem ▸ hm, fun _ _ _ _ => by rw [h.mem], h.slot⟩

/-- The writes of an instruction and then a move of pc keep what a step keeps. -/
theorem WritesOf.stepKeeps {i : Instr} {s u t : State} (hw : WritesOf i s u) (hm : MovesPc u t) : StepKeeps s t where
  params := hm.params.trans hw.params
  text := hm.text.trans hw.text
  zero hz := by rw [hm.gpr, hw.zero hz]
  memWf hs := by rw [hm.mem]; exact hw.mem_wf hs
  textBytes _ hslot _ hn := by rw [hm.mem]; exact hw.lookup_text hslot hn
  slot := by rw [← hw.params]; exact hm.slot

theorem trapEntry_stepKeeps (e : Exn) (s : State) : StepKeeps s (trapEntry e s) :=
  ⟨rfl, rfl, id, id, fun _ _ _ _ => rfl, .inl rfl⟩

/-- Every instruction keeps what a step keeps. -/
theorem exec_stepKeeps {i : Instr} {s t : State} (h : exec i s = .next t) : StepKeeps s t := by
  cases exec_shape i s with
  | refused q eq => rw [eq] at h; cases h
  | raised e eq =>
    obtain ⟨-, he⟩ | ⟨-, he⟩ := raise_cases e s <;> rw [eq, he] at h <;> cases h
    exact trapEntry_stepKeeps e s
  | sequential u writes eq => exact writes.stepKeeps (movesPc_of_advance (eq ▸ h))
  | inSlot eq => rw [eq] at h; cases h
  | returned eq isEret noSlot =>
    rw [eq] at h
    cases h
    exact MovesPc.stepKeeps ⟨rfl, rfl, rfl, rfl, .inl noSlot⟩
  | jumped u target writes eq isTransfer noSlot =>
    exact writes.stepKeeps (movesPc_of_transfer (writes.delay.trans noSlot) (eq ▸ h))
  | branched taken offset eq => exact (movesPc_of_branch (eq ▸ h)).stepKeeps

/-- Every step keeps what an instruction keeps: the fetch before it changes no field but the count of draws. -/
theorem step_stepKeeps {s t : State} (h : step s = .next t) : StepKeeps s t := by
  obtain ⟨-, ⟨i, u, hf, he⟩ | ⟨e, -, -, rfl⟩⟩ := step_next h
  · have hk := exec_stepKeeps he
    obtain ⟨-, rfl | rfl⟩ := fetch_ok hf
    · exact hk
    · exact ⟨hk.params, hk.text, hk.zero, hk.memWf, hk.textBytes, hk.slot⟩
  · exact trapEntry_stepKeeps e s

/-- What a step keeps carries the invariant over. -/
theorem StepKeeps.stateInv {s t : State} (h : StepKeeps s t) (hs : StateInv s) : StateInv t where
  mem := h.memWf hs.mem
  zero := h.zero hs.zero
  noSlot hd := by
    rw [h.params] at hd
    obtain hn | ⟨hd', -⟩ := h.slot
    · exact hn
    · rw [hd] at hd'; cases hd'
  slotAfterBranch hn := (h.slot.resolve_left hn).2

/-- Settles O13: the invariant follows from what every step keeps. -/
theorem stepKeepsInvariant : Obligations.StepKeepsInvariant :=
  fun _ _ hs h => (step_stepKeeps h).stateInv hs

/-- Settles O17: a store into the program text is refused, and nothing else writes memory. -/
theorem stepKeepsProgramAndParameters : Obligations.StepKeepsProgramAndParameters := fun _ _ h =>
  have hk := step_stepKeeps h
  ⟨hk.params, hk.text, hk.textBytes⟩

end Sys2Proof.Machine
end

section
/-! SUPPORT. The mode (spec/10_state.md R45) and writes to x[0] (R31). -/

namespace Sys2Proof.Machine

-- The mode (O12)

theorem mode_eq_kernel_iff {s : State} : mode s = some .kernel ↔ exl s = true ∨ erl s = true ∨ ksu s = 0b00 := by
  unfold mode
  cases exl s <;> cases erl s <;> simp

theorem mode_eq_user_iff {s : State} : mode s = some .user ↔ exl s = false ∧ erl s = false ∧ ksu s = 0b10 := by
  unfold mode
  cases exl s <;> cases erl s <;> by_cases hk : ksu s = 0#2 <;> simp [hk]

/-- A KSU other than 00 and 10, with EXL = ERL = 0, gives no mode. -/
theorem mode_eq_none {s : State} (hx : exl s = false) (he : erl s = false) (hk : ksu s = 0b01 ∨ ksu s = 0b11) :
    mode s = none := by
  obtain hk | hk := hk <;> simp [mode, hx, he, hk]

/-- Without a mode, the first check of the fetch refuses the step (log 13). -/
theorem step_of_mode_none {s : State} (ha : atEnd s = false) (hm : mode s = none) : step s = .refused .modeNotModelled := by
  have hf : fetch s = .error (.refuse .modeNotModelled) := by simp [fetch, checkAccess, hm]
  simp [step, stepBy, ha, hf, stopWith]

/-- Settles O12: the mode is read off Status, and without one the fetch refuses. -/
theorem modeIsAFunctionOfStatus : Obligations.ModeIsAFunctionOfStatus :=
  fun _ => ⟨mode_eq_kernel_iff, mode_eq_user_iff, fun hx he hk ha => step_of_mode_none ha (mode_eq_none hx he hk)⟩

-- Writes to x[0] (O20)

/-- A sequential instruction with destination R0 does what NOP does. -/
theorem advance_writeGpr_zero (s : State) (v : Word) : advance (writeGpr s 0 v) = exec .nop s :=
  congrArg advance (writeGpr_zero s v)

/-- A state with pc moved in order and any count of draws differs in nothing a frame speaks of. -/
theorem onlyAdvances_withDraws (s : State) (d : Nat) :
    OnlyAdvances s { s with draws := d, pc := s.delay.getD (s.pc + 4), delay := none } := by
  refine ⟨fun p _ => ?_, rfl, rfl⟩
  cases p with
  | gprs | fprs | fccs | mem => exact fun _ => rfl
  | hi | lo | status | cause | epc | badVAddr => rfl
  | run => exact ⟨rfl, rfl⟩

/-- After a read, which only draws, an instruction that discards its result only advances. -/
theorem advance_onlyAdvances_of_read {s u : State} (hu : u = s ∨ u = drawn s) (hc : CanAdvance s) :
    ∃ t, advance u = .next t ∧ OnlyAdvances s t := by
  obtain rfl | rfl := hu
  · exact ⟨_, advance_next hc, onlyAdvances_withDraws _ _⟩
  · exact ⟨_, advance_next hc, onlyAdvances_withDraws _ _⟩

/-- A load to x[0] whose checks pass only advances. -/
theorem load_zero_onlyAdvances {s : State} {a : Word} (size : Size) (extend : Word → Word)
    (ha : AccessOk a (sizeBytes size) s) (hc : CanAdvance s) :
    ∃ t, load a size (fun s v => writeGpr s 0 (extend v)) s = .next t ∧ OnlyAdvances s t := by
  simp only [load, memRead, checkAccess_ok.mpr ha, writeGpr_zero]
  exact advance_onlyAdvances_of_read (afterRead_cases _ _ _) hc

/-- A load whose checks fail stops before it writes, so its destination does not matter. -/
theorem load_stop_congr {s : State} {a : Word} (size : Size) {write write' : State → Word → State}
    (ha : ¬AccessOk a (sizeBytes size) s) : load a size write s = load a size write' s := by
  unfold load memRead
  simp only
  cases h : checkAccess a (sizeBytes size) (.addressErrorLoad a) (.busErrorData a) s with
  | ok u => exact absurd (checkAccess_ok.mp h) ha
  | error x => rfl

/-- What MFC0 and DMFC0 share: `extend` is what they do to the value read. -/
def moveFromC0 (rd : Reg) (cs : CReg) (extend : Word → Word) (s : State) : Result :=
  kernelOnly s <|
    match readC0 s cs with
    | some (v, s') => advance (writeGpr s' rd (extend v))
    | none => .refused .c0RegisterNotModelled

theorem exec_mfc0 (rd : Reg) (cs : CReg) (s : State) : exec (.mfc0 rd cs) s = moveFromC0 rd cs (sextLow 32) s := rfl

theorem exec_dmfc0 (rd : Reg) (cs : CReg) (s : State) : exec (.dmfc0 rd cs) s = moveFromC0 rd cs id s := rfl

/-- A move from c0 to x[0] in Kernel mode only advances. -/
theorem moveFromC0_zero_onlyAdvances {s : State} {cs : CReg} (extend : Word → Word) (hm : mode s = some .kernel)
    (hn : C0Number cs) (hc : CanAdvance s) : ∃ t, moveFromC0 0 cs extend s = .next t ∧ OnlyAdvances s t := by
  obtain ⟨⟨v, u⟩, hr⟩ := Option.ne_none_iff_exists'.mp (readC0_ne_none (s := s) hn)
  have hu : u = s ∨ u = drawn s := by
    obtain ⟨-, -, h⟩ | ⟨-, -, h⟩ | ⟨-, -, h⟩ | ⟨-, -, h⟩ := readC0_some hr <;> simp [h]
  simp only [moveFromC0, kernelOnly, hm, hr, writeGpr_zero]
  exact advance_onlyAdvances_of_read hu hc

/-- A move from c0 that stops does so before it writes, so its destination does not matter. -/
theorem moveFromC0_stop_congr {s : State} {cs : CReg} {extend : Word → Word} (rd rd' : Reg)
    (h : ¬(mode s = some .kernel ∧ C0Number cs)) : moveFromC0 rd cs extend s = moveFromC0 rd' cs extend s := by
  unfold moveFromC0 kernelOnly
  split
  · rfl
  · rfl
  · rename_i hm
    cases hr : readC0 s cs with
    | none => rfl
    | some p => exact absurd ⟨hm, readC0_number hr⟩ h

/-- Settles O20: a write to x[0] is the state itself, a read before it only draws, and a stop comes before the write. -/
theorem registerZeroReadsZero : Obligations.RegisterZeroReadsZero := by
  intro rd rs rt imm offset sa cs fs v s
  have nop := advance_writeGpr_zero s
  have movz : exec (.movz 0 rs rt) s = exec .nop s := by
    simp only [exec, execMovz, execNop, writeGpr_zero, ite_self]
  have movn : exec (.movn 0 rs rt) s = exec .nop s := by
    simp only [exec, execMovn, execNop, writeGpr_zero, ite_self]
  simp only [Completes, exec_mfc0, exec_dmfc0]
  refine ⟨readGpr_zero s, writeGpr_zero s v,
    nop _, nop _, nop _, nop _, nop _, nop _, nop _, nop _, nop _, nop _, nop _, nop _, nop _, nop _, nop _,
    nop _, nop _, nop _, nop _, nop _, nop _, movz, movn, nop _, nop _, nop _, nop _,
    load_zero_onlyAdvances .byte (sextLow 8), load_stop_congr .byte,
    load_zero_onlyAdvances .byte id, load_stop_congr .byte,
    load_zero_onlyAdvances .half (sextLow 16), load_stop_congr .half,
    load_zero_onlyAdvances .half id, load_stop_congr .half,
    load_zero_onlyAdvances .word (sextLow 32), load_stop_congr .word,
    load_zero_onlyAdvances .word id, load_stop_congr .word,
    load_zero_onlyAdvances .dword id, load_stop_congr .dword,
    moveFromC0_zero_onlyAdvances (sextLow 32), moveFromC0_stop_congr 0 rd,
    moveFromC0_zero_onlyAdvances id, moveFromC0_stop_congr 0 rd⟩

end Sys2Proof.Machine
end

section
/-! SUPPORT. Where pc would wrap, and that the refusal of it comes last (spec/10_state.md R35; log 12, log 26). -/

namespace Sys2Proof.Machine

-- When each operation that ends an instruction is refused as a wrap

theorem raise_ne_refused (e : Exn) (s : State) (q : Refusal) : raise e s ≠ .refused q := by
  obtain ⟨-, h⟩ | ⟨-, h⟩ := raise_cases e s <;> rw [h] <;> nofun

theorem advance_pcWraps_iff {u : State} : advance u = .refused .pcWraps ↔ ¬CanAdvance u := by
  obtain ⟨hd, hw, he⟩ | ⟨hc, he⟩ := advance_cases u
  · exact ⟨fun _ hc => absurd (hc hd) (Nat.not_lt.mpr hw), fun _ => he⟩
  · rw [he]
    exact ⟨nofun, fun h => absurd hc h⟩

theorem transfer_pcWraps_iff {target : Word} {u : State} (hd : u.delay = none) :
    transfer target u = .refused .pcWraps ↔ ¬CanTransfer u := by
  by_cases hc : u.params.delaySlot = true → u.pc.toNat + 4 < 2 ^ 64
  · rw [transfer_next target hc]
    exact ⟨nofun, fun h => absurd ⟨hd, hc⟩ h⟩
  · refine ⟨fun _ h => hc h.2, fun _ => ?_⟩
    obtain ⟨hs, hw⟩ := Classical.not_imp.mp hc
    simp [transfer, hs, not_fits hw]

theorem notTaken_pcWraps_iff {u : State} :
    notTaken u = .refused .pcWraps ↔ ¬u.pc.toNat + (if u.params.delaySlot = true then 8 else 4) < 2 ^ 64 := by
  by_cases hc : u.pc.toNat + (if u.params.delaySlot = true then 8 else 4) < 2 ^ 64
  · rw [notTaken_next hc]
    exact ⟨nofun, fun h => absurd hc h⟩
  · refine ⟨fun _ => hc, fun _ => ?_⟩
    by_cases hs : u.params.delaySlot = true
    · rw [if_pos hs] at hc
      simp [notTaken, hs, not_fits hc]
    · rw [if_neg hs] at hc
      simp [notTaken, hs, not_fits hc]

/-- The target of a branch wraps by the exact sum of U9. -/
theorem branchWraps_eq_true_iff {pc : Word} {offset : Imm} :
    branchWraps pc offset = true ↔ ¬(pc.toNat : Int) + 4 + 4 * offset.toInt < 2 ^ 64 := by
  rw [branchWraps, decide_eq_true_iff, not_lt]

theorem branch_pcWraps_iff {taken : Bool} {offset : Imm} {s : State} (hd : s.delay = none) :
    branch taken offset s = .refused .pcWraps ↔ ¬BranchRoom (taken = true) offset s := by
  cases taken with
  | false => simpa [branch, outsideSlot, BranchRoom, hd] using notTaken_pcWraps_iff (u := s)
  | true =>
    have hroom : BranchRoom (true = true) offset s ↔ branchWraps s.pc offset = false ∧ CanTransfer s := by
      rw [← Bool.not_eq_true, branchWraps_eq_true_iff]
      simp [BranchRoom, CanTransfer, hd]
    rw [hroom]
    cases hw : branchWraps s.pc offset with
    | true => simp [branch, outsideSlot, hd, hw]
    | false =>
      simpa [branch, outsideSlot, hd, hw] using transfer_pcWraps_iff (target := branchTarget s.pc offset) hd

-- What `WrapsPc` comes to, by the kind of instruction

theorem wrapsPc_of_sequential {i : Instr} {s : State} (h : controlTransfer i = false) : WrapsPc i s ↔ ¬CanAdvance s := by
  rw [WrapsPc, jumpDestination_none (.inl h), branchCase_none (.inl h)]

theorem wrapsPc_of_jump {i : Instr} {s : State} {target : Word} (h : jumpDestination i s = some target)
    (hd : s.delay = none) : WrapsPc i s ↔ ¬CanTransfer s := by
  rw [WrapsPc, h]
  exact and_iff_right hd

theorem wrapsPc_of_branch {i : Instr} {s : State} {taken : Bool} {offset : Imm}
    (h : branchCase i s = some (taken, offset)) (hd : s.delay = none) :
    WrapsPc i s ↔ ¬BranchRoom (taken = true) offset s := by
  rw [WrapsPc, jumpDestination_of_branch h, h]
  exact and_iff_right hd

/-- No instruction wraps in a delay slot: pc goes to the pending destination. -/
theorem delay_of_wrapsPc {i : Instr} {s : State} (h : WrapsPc i s) : s.delay = none := by
  unfold WrapsPc at h
  split at h
  · exact h.1
  · exact h.1
  · exact (Classical.not_imp.mp h).1

/-- A wrap happens in the last 128 KiB of the address space, the reach of a branch. -/
theorem le_pc_of_wrapsPc {i : Instr} {s : State} (h : WrapsPc i s) : 2 ^ 64 - 2 ^ 17 ≤ s.pc.toNat := by
  unfold WrapsPc at h
  split at h
  · obtain ⟨hd, hn⟩ := h
    by_contra hlt
    exact hn ⟨hd, fun _ => by omega⟩
  · rename_i taken offset _ _
    obtain ⟨hd, hn⟩ := h
    have hreach : offset.toInt < 2 ^ 15 := BitVec.toInt_lt
    by_contra hlt
    exact hn ⟨hd, fun _ => ⟨by omega, fun _ => by omega⟩, fun _ => by split <;> omega⟩
  · by_contra hlt
    exact h fun _ => by omega

/-- An instruction is refused as a wrap exactly where it comes to the move of pc and pc would wrap. -/
theorem exec_pcWraps_iff (i : Instr) (s : State) :
    exec i s = .refused .pcWraps ↔ ReachesAdvance i s ∧ WrapsPc i s := by
  cases exec_shape i s with
  | refused q eq _ notWrap _ stops =>
    rw [eq]
    exact ⟨fun h => absurd (Host.Outcome.refused.inj h) notWrap, fun h => absurd h.1 stops⟩
  | raised e eq _ _ stops =>
    rw [eq]
    exact ⟨fun h => absurd h (raise_ne_refused e s _), fun h => absurd h.1 stops⟩
  | sequential u writes eq notTransfer reaches =>
    have hu : CanAdvance u ↔ CanAdvance s := by rw [CanAdvance, CanAdvance, writes.delay, writes.pc]
    rw [eq, advance_pcWraps_iff, hu, wrapsPc_of_sequential notTransfer, and_iff_right reaches]
  | inSlot eq _ slot =>
    rw [eq]
    exact ⟨nofun, fun h => absurd (delay_of_wrapsPc h.2) slot⟩
  | returned eq isEret =>
    subst isEret
    rw [eq]
    exact ⟨nofun, fun h => h.1.elim⟩
  | jumped u target writes eq _ noSlot destination reaches =>
    have hu : CanTransfer u ↔ CanTransfer s := by
      rw [CanTransfer, CanTransfer, writes.delay, writes.pc, writes.params]
    rw [eq, transfer_pcWraps_iff (writes.delay.trans noSlot), hu, wrapsPc_of_jump destination noSlot, and_iff_right reaches]
  | branched taken offset eq _ noSlot case reaches =>
    rw [eq, branch_pcWraps_iff noSlot, wrapsPc_of_branch case noSlot, and_iff_right reaches]

/-- Settles O51: the first part by the outcomes of an instruction, the second from the first. -/
theorem wrapOfPcIsRefused : Obligations.WrapOfPcIsRefused := by
  refine ⟨exec_pcWraps_iff, fun i s h => ?_⟩
  obtain ⟨hr, hw⟩ := (exec_pcWraps_iff i s).mp h
  refine ⟨delay_of_wrapsPc hw, ?_, ?_, le_pc_of_wrapsPc hw⟩
  · rintro rfl; exact hr
  · rintro code rfl; exact hr

end Sys2Proof.Machine
end

section
/-! SUPPORT. Raising an exception, the access checks in their order, and the fetch (spec/60_exceptions.md R296,
spec/20_memory.md R66 to R68). -/

namespace Sys2Proof.Machine

-- Raising (R296)

theorem trapEntry_entered (e : Exn) (s : State) : TrapEntered e s (trapEntry e s) where
  epcAndBd hx hd := by simp [trapEntry, hx, hd]
  epcAndBdInSlot hx hd := by simp [trapEntry, hx, Option.isSome_iff_ne_none.mpr hd]
  epcAndBdNested hx := by simp [trapEntry, hx]
  excCode := by cases e <;> rfl
  ce n he := by rw [he]; rfl
  badVAddr := by cases e <;> rfl
  status := getLsbD_setExl s.status
  kernel := mode_trapEntry e s
  delay := rfl
  pc := rfl
  frame p hp := by
    cases p with
    | gprs | fprs | fccs | mem => exact fun _ => rfl
    | hi | lo => rfl
    | run => exact ⟨rfl, rfl⟩
    | status | cause | epc | badVAddr => simp at hp

theorem raise_raises (e : Exn) (s : State) : Raises e s (raise e s) where
  host h := if_pos h
  handler h := ⟨trapEntry e s, by simp [raise, h], trapEntry_entered e s⟩

-- The access checks (R66 to R68)

theorem checkAccess_eq_bad {a : Word} {k : Nat} {bad bus : Exn} {s : State} (hm : mode s ≠ none)
    (h : a.toNat % k ≠ 0 ∨ (mode s = some .user ∧ userAccessible s a = false)) :
    checkAccess a k bad bus s = .error (.raise bad) := by
  cases hc : checkAccess a k bad bus s with
  | ok u =>
    obtain ⟨-, ha, hu, -⟩ := checkAccess_ok.mp hc
    obtain h | ⟨h, hn⟩ := h
    · exact absurd ha h
    · rw [hu h] at hn; cases hn
  | error x =>
    obtain ⟨h', -⟩ | ⟨-, -, rfl⟩ | ⟨-, ha, hu, -⟩ := checkAccess_error hc
    · exact absurd h' hm
    · rfl
    · exact (h.elim (fun hn => hn ha) hu).elim

theorem checkAccess_eq_bus {a : Word} {k : Nat} {bad bus : Exn} {s : State} (hm : mode s ≠ none) (ha : a.toNat % k = 0)
    (hu : ¬(mode s = some .user ∧ userAccessible s a = false)) (hb : ∃ i < k, backed s (a + BitVec.ofNat 64 i) = false) :
    checkAccess a k bad bus s = .error (.raise bus) := by
  cases hc : checkAccess a k bad bus s with
  | ok u =>
    obtain ⟨-, -, -, hall⟩ := checkAccess_ok.mp hc
    obtain ⟨i, hi, hn⟩ := hb
    rw [hall i hi] at hn
    cases hn
  | error x =>
    obtain ⟨h', -⟩ | ⟨-, h', -⟩ | ⟨-, -, -, -, rfl⟩ := checkAccess_error hc
    · exact absurd h' hm
    · exact (h'.elim (fun hn => hn ha) hu).elim
    · rfl

-- Aligned reads of bytes that are all written (R63, R66)

/-- An access aligned to its size does not run past the last address. -/
theorem toNat_add_size_le {a : Word} (size : Size) (h : a.toNat % sizeBytes size = 0) :
    a.toNat + sizeBytes size ≤ 2 ^ 64 := by
  have hlt := a.isLt
  cases size <;> simp only [sizeBytes] at h ⊢ <;> omega

theorem sizeBytes_pos (size : Size) : 0 < sizeBytes size := by cases size <;> decide

theorem sizeBytes_dvd (size : Size) : sizeBytes size ∣ 2 ^ 64 := by cases size <;> decide

/-- The bytes of an aligned access that are all written read as they are. -/
theorem readBytes_of_lookup {s : State} {a : Word} (size : Size) {b : Nat → Byte} (ha : a.toNat % sizeBytes size = 0)
    (h : ∀ i < sizeBytes size, s.mem.lookup (a.toNat + i) = some (b i)) :
    readBytes s a (sizeBytes size) = (List.range (sizeBytes size)).map b := by
  refine List.map_congr_left fun i hi => ?_
  rw [byteAddr_toNat a i _ (sizeBytes_dvd size) ha (List.mem_range.mp hi), h i (List.mem_range.mp hi), Option.getD_some]

/-- Nothing is drawn by a read of bytes that are all written. -/
theorem afterRead_of_lookup {s : State} {a : Word} (size : Size) {b : Nat → Byte} (ha : a.toNat % sizeBytes size = 0)
    (h : ∀ i < sizeBytes size, s.mem.lookup (a.toNat + i) = some (b i)) : afterRead s a (sizeBytes size) = s := by
  refine if_neg ?_
  rw [unwritten, Bool.not_eq_true, List.any_eq_false]
  intro i hi
  rw [byteAddr_toNat a i _ (sizeBytes_dvd size) ha (List.mem_range.mp hi), h i (List.mem_range.mp hi)]
  exact Bool.false_ne_true

-- The bytes of the word at pc (R63, R68)

@[simp] theorem length_bytesOfWord (e : Endian) (w : IWord) : (bytesOfWord e w).length = 4 := by cases e <;> rfl

/-- Byte i of an instruction word, from the lowest address. -/
def wordByte (e : Endian) (w : IWord) (i : Nat) : Byte :=
  match e with
  | .big => w.extractLsb' (8 * (3 - i)) 8
  | .little => w.extractLsb' (8 * i) 8

theorem bytesOfWord_eq_map (e : Endian) (w : IWord) : bytesOfWord e w = (List.range 4).map (wordByte e w) := by
  cases e <;> rfl

theorem wordAtPc_iff {s : State} {w : IWord} :
    WordAtPc s w ↔ ∀ i < 4, s.mem.lookup (s.pc.toNat + i) = some (wordByte s.params.endian w i) := by
  unfold WordAtPc wordByte
  cases s.params.endian <;> exact Iff.rfl

-- The fetch (R68, R333)

/-- A step is what its fetch gives. -/
theorem step_of_fetch_ok {s u : State} {i : Instr} (ha : atEnd s = false) (hf : fetch s = .ok (i, u)) :
    step s = exec i u := by
  simp [step, stepBy, ha, hf]

theorem step_of_fetch_error {s : State} {x : Stop} (ha : atEnd s = false) (hf : fetch s = .error x) :
    step s = stopWith s x := by
  simp [step, stepBy, ha, hf]

theorem fetch_of_checkAccess_error {s : State} {x : Stop}
    (h : checkAccess s.pc 4 (.addressErrorLoad s.pc) (.busErrorFetch s.pc) s = .error x) : fetch s = .error x := by
  simp only [fetch, h]

theorem fetch_placed {s : State} {a : Word} {i : Instr} (h : AccessOk s.pc 4 s)
    (ht : textAt s s.pc = some ⟨a, some i⟩) : fetch s = .ok (i, s) := by
  simp only [fetch, checkAccess_ok.mpr h, ht]

theorem fetch_outsideText {s : State} (h : AccessOk s.pc 4 s) (ht : textAt s s.pc = none) :
    fetch s = .error (.refuse .fetchOutsideProgramText) := by
  simp only [fetch, checkAccess_ok.mpr h, ht]

/-- A place that holds the word in memory is fetched by decoding it, and nothing is drawn. -/
theorem fetch_word {s : State} {a : Word} {w : IWord} (h : AccessOk s.pc 4 s) (ht : textAt s s.pc = some ⟨a, none⟩)
    (hw : WordAtPc s w) :
    fetch s = ((decode w).map fun i => (i, s)).mapError fun _ => .refuse .wordOutsideCard := by
  have ⟨_, ha, _⟩ := h
  have hread : readBytes s s.pc 4 = bytesOfWord s.params.endian w :=
    (readBytes_of_lookup .word ha (wordAtPc_iff.mp hw)).trans (bytesOfWord_eq_map _ _).symm
  have hdraw : afterRead s s.pc 4 = s := afterRead_of_lookup .word ha (wordAtPc_iff.mp hw)
  have hdecode := decodeBytes_bytesOfWord s.params.endian w []
  rw [List.append_nil] at hdecode
  simp only [fetch, checkAccess_ok.mpr h, ht, hread, hdecode, hdraw]
  cases decode w <;> rfl

/-- The step at a place that holds a word. -/
theorem step_word {s : State} {a : Word} {w : IWord} (hs : FetchOk s) (ht : textAt s s.pc = some ⟨a, none⟩)
    (hw : WordAtPc s w) :
    (∀ i, decode w = .ok i → step s = exec i s) ∧ (∀ r, decode w = .error r → step s = .refused .wordOutsideCard) := by
  have hf := fetch_word hs.2 ht hw
  exact ⟨fun i hd => step_of_fetch_ok hs.1 (by rw [hf, hd]; rfl),
    fun r hd => step_of_fetch_error (x := .refuse .wordOutsideCard) hs.1 (by rw [hf, hd]; rfl)⟩

theorem step_placed {s : State} {a : Word} {i : Instr} (hs : FetchOk s) (ht : textAt s s.pc = some ⟨a, some i⟩) :
    step s = exec i s :=
  step_of_fetch_ok hs.1 (fetch_placed hs.2 ht)

/-- Settles O8: the fetch checked, what is at the place of the text is decoded or taken as it is. -/
theorem stepRunsDecodedInstruction : Obligations.StepRunsDecodedInstruction := fun _ hs =>
  ⟨fun _ _ i ht hw => (step_word hs ht hw).1 i, fun _ _ r ht hw => (step_word hs ht hw).2 r,
    fun _ _ => step_placed hs, fun ht => step_of_fetch_error hs.1 (fetch_outsideText hs.2 ht)⟩

-- Placing a word at pc (log 11)

theorem textAt_placeWord (s : State) (w : IWord) : textAt (placeWord s w) (placeWord s w).pc = some ⟨s.pc, none⟩ := by
  simp [textAt, placeWord]

theorem wordAtPc_placeWord {s : State} (w : IWord) (ha : s.pc.toNat % 4 = 0) : WordAtPc (placeWord s w) w := by
  refine wordAtPc_iff.mpr fun i hi => ?_
  have hend : s.pc.toNat + (bytesOfWord s.params.endian w).length ≤ 2 ^ 64 := by
    rw [length_bytesOfWord]
    exact toNat_add_size_le .word ha
  refine (Memory.lookup_storeBytes s.mem s.pc _ hend (s.pc.toNat + i)).trans ?_
  rw [length_bytesOfWord, if_pos (by omega), Nat.add_sub_cancel_left, bytesOfWord_eq_map]
  simp [hi, placeWord]

/-- Settles O9: the place at pc is the one put there, and memory holds the word's bytes. -/
theorem placedWordRuns : Obligations.PlacedWordRuns := fun s w hs =>
  have ⟨_, _, ha, _⟩ := hs
  step_word (s := placeWord s w) hs (textAt_placeWord s w) (wordAtPc_placeWord w ha)

-- The order of the checks (O10)

/-- A fetch that one of its checks stops raises the exception of that check. -/
theorem step_raises_of_check {s : State} {e : Exn} (ha : atEnd s = false)
    (h : checkAccess s.pc 4 (.addressErrorLoad s.pc) (.busErrorFetch s.pc) s = .error (.raise e)) :
    Raises e s (step s) := by
  rw [step_of_fetch_error ha (fetch_of_checkAccess_error h)]
  exact raise_raises e s

/-- Settles O10: each check raises where those before it pass, and past them the step is that of O8. -/
theorem fetchChecksInOrder : Obligations.FetchChecksInOrder := by
  intro s ha hm
  refine ⟨fun h4 => step_raises_of_check ha (checkAccess_eq_bad hm (.inl h4)),
    fun _ hu hn => step_raises_of_check ha (checkAccess_eq_bad hm (.inr ⟨hu, hn⟩)),
    fun h4 hu hb => step_raises_of_check ha (checkAccess_eq_bus hm h4 hu hb),
    fun hs => ⟨fun a w ht hw => ?_, fun _ _ => step_placed hs⟩⟩
  obtain ⟨hok, herr⟩ := step_word hs ht hw
  cases hd : decode w with
  | ok i => exact hok i hd
  | error r => exact herr r hd

end Sys2Proof.Machine
end

section
/-! SUPPORT. Loads and stores that go through, and the parts of a stored double-word (spec/20_memory.md R63, R66, R67). -/

namespace Sys2Proof.Machine

-- What a load and a store leave (R66, R67)

/-- The result of a sequential instruction that writes a general register, after a read of memory, which only draws. -/
theorem advance_writeGpr_result {s u : State} (hu : u = s ∨ u = drawn s) (hc : CanAdvance s) (rd : Reg) (v : Word) :
    ∃ t, advance (writeGpr u rd v) = .next t ∧ GprResult rd v s t := by
  obtain ⟨d, rfl⟩ : ∃ d, u = { s with draws := d } := by
    obtain rfl | rfl := hu <;> exact ⟨_, rfl⟩
  refine ⟨_, advance_next (by rwa [writeGpr_delay, writeGpr_pc]), fun r => readGpr_writeGpr _ rd r v, fun p hp => ?_, by simp, rfl⟩
  cases p with
  | gprs => simp at hp
  | fprs => exact readFpr_congr (writeGpr_fpr _ rd v)
  | fccs => exact readFcc_congr (writeGpr_fcc _ rd v)
  | mem => exact fun a => congrArg (Memory.lookup · a) (writeGpr_mem _ rd v)
  | hi | lo | status | cause | epc | badVAddr => simp [Part.Same]
  | run => simp [Part.Same]

/-- A load whose checks pass writes what it read. -/
theorem load_result {s : State} {a : Word} {size : Size} (rd : Reg) (extend : Word → Word)
    (ha : AccessOk a (sizeBytes size) s) (hc : CanAdvance s) :
    ∃ t, load a size (fun s v => writeGpr s rd (extend v)) s = .next t ∧
      GprResult rd (extend (valueOfBytes s.params.endian (readBytes s a (sizeBytes size)))) s t := by
  simp only [load, memRead, checkAccess_ok.mpr ha]
  exact advance_writeGpr_result (afterRead_cases s a _) hc rd _

/-- A store whose checks pass writes its bytes, or is refused where one of them lies in the program text. -/
theorem store_of_accessOk {s : State} {a : Word} {size : Size} (v : Word) (ha : AccessOk a (sizeBytes size) s) :
    store a size v s =
      if someByte a (sizeBytes size) (inText s) then .refused .storeIntoProgramText
      else advance { s with mem := s.mem.storeBytes a (bytesOfValue s.params.endian (sizeBytes size) v) } := by
  simp only [store, memWrite, checkAccess_ok.mpr ha]
  cases someByte a (sizeBytes size) (inText s) <;> rfl

/-- A byte of an aligned store. -/
theorem lookup_storeBytes_value {m : Memory} {a : Word} {size : Size} (e : Endian) (v : Word)
    (ha : a.toNat % sizeBytes size = 0) {i : Nat} (hi : i < sizeBytes size) :
    (m.storeBytes a (bytesOfValue e (sizeBytes size) v)).lookup (a.toNat + i) =
      some (byteStored e (sizeBytes size) v i) := by
  rw [Memory.lookup_storeBytes _ _ _ (by simpa using toNat_add_size_le size ha), length_bytesOfValue, if_pos (by omega),
    Nat.add_sub_cancel_left, getElem?_bytesOfValue e _ v i hi]
  cases e <;> rfl

/-- A store that completes has stored its bytes and nothing else. -/
theorem storeResult_of_store {s t : State} {a : Word} {size : Size} {v : Word} (ha : AccessOk a (sizeBytes size) s)
    (h : store a size v s = .next t) : StoreResult a (sizeBytes size) v s t := by
  have ⟨_, halign, _⟩ := ha
  rw [store_of_accessOk v ha] at h
  split at h
  · cases h
  · rw [eq_of_advance h]
    refine ⟨fun i hi => lookup_storeBytes_value _ v halign hi, fun n hn => ?_, fun p hp => ?_, rfl, rfl⟩
    · refine (Memory.lookup_storeBytes _ _ _ (by simpa using toNat_add_size_le size halign) n).trans (if_neg ?_)
      rw [length_bytesOfValue]
      omega
    · cases p with
      | mem => simp at hp
      | gprs | fprs | fccs => exact fun _ => rfl
      | hi | lo | status | cause | epc | badVAddr => rfl
      | run => exact ⟨rfl, rfl⟩

-- The fields of a double-word that its bytes are (R63)

/-- Consecutive bytes of a value, from its byte n - 1 downward, join to the field they are. -/
theorem joinBytes_descending (v : Word) (n k : Nat) (h : k ≤ n) :
    joinBytes ((List.range k).map fun j => v.extractLsb' (8 * (n - 1 - j)) 8) =
      (v.extractLsb' (8 * (n - k)) (8 * k)).setWidth 64 := by
  induction k with
  | zero => simp [joinBytes]
  | succ k ih =>
    have hfield : v.extractLsb' (8 * (n - k)) (8 * k) ++ v.extractLsb' (8 * (n - 1 - k)) 8 =
        v.extractLsb' (8 * (n - (k + 1))) (8 * (k + 1)) := by
      rw [Nat.sub_sub, Nat.add_comm 1 k]
      exact BitVec.extractLsb'_append_extractLsb'_eq_extractLsb' (by omega)
    rw [← hfield, setWidth_append_byte, ← ih (by omega), List.range_succ, List.map_append]
    simp [joinBytes]

/-- The field of a double-word in memory that its k bytes from byte i on are, zero-extended. -/
def partOf (e : Endian) (v : Word) (i k : Nat) : Word :=
  match e with
  | .big => (v.extractLsb' (8 * (8 - i - k)) (8 * k)).setWidth 64
  | .little => (v.extractLsb' (8 * i) (8 * k)).setWidth 64

theorem valueOfBytes_part (e : Endian) (v : Word) {i k : Nat} (h : i + k ≤ 8) :
    valueOfBytes e ((List.range k).map fun j => byteStored e 8 v (i + j)) = partOf e v i k := by
  cases e with
  | big =>
    rw [partOf, ← joinBytes_descending v (8 - i) k (by omega)]
    refine congrArg joinBytes (List.map_congr_left fun j _ => ?_)
    rw [byteStored, show 8 - 1 - (i + j) = 8 - i - 1 - j by omega]
  | little =>
    have hfield : i = i + k - k := (Nat.add_sub_cancel i k).symm
    rw [partOf, hfield, ← joinBytes_descending v (i + k) k (by omega)]
    refine congrArg joinBytes (List.ext_getElem (by simp) fun j hj _ => ?_)
    have hlt : j < k := by simpa using hj
    have hbyte : i + (k - 1 - j) = i + k - 1 - j := by omega
    simp [byteStored, hbyte]

theorem partOf_big_byte (v : Word) (i : Nat) :
    partOf .big v i 1 = (v.extractLsb' (56 - 8 * i) 8).setWidth 64 := by
  rw [partOf, show 8 * (8 - i - 1) = 56 - 8 * i by omega]

theorem partOf_whole (e : Endian) (v : Word) : partOf e v 0 8 = v := by
  cases e <;> simp [partOf]

-- Reading parts of a double-word back (O45)

section

variable {a v : Word} {s t : State} (hs : StoreResult a 8 v s t) (ha : a.toNat % 8 = 0) {size : Size} {i : Nat}
  (hi : i + sizeBytes size ≤ 8) (halign : i % sizeBytes size = 0)

include ha hi halign

/-- A part at a multiple of its size is an aligned access. -/
theorem part_aligned :
    (a + BitVec.ofNat 64 i).toNat = a.toNat + i ∧ (a + BitVec.ofNat 64 i).toNat % sizeBytes size = 0 := by
  have hpos := sizeBytes_pos size
  have haddr : (a + BitVec.ofNat 64 i).toNat = a.toNat + i := byteAddr_toNat a i 8 (by decide) ha (by omega)
  refine ⟨haddr, ?_⟩
  rw [haddr]
  cases size <;> simp only [sizeBytes] at halign ⊢ <;> omega

include hs

/-- What a part reads as. -/
theorem valueOfBytes_readBytes_part :
    valueOfBytes t.params.endian (readBytes t (a + BitVec.ofNat 64 i) (sizeBytes size)) =
      partOf s.params.endian v i (sizeBytes size) := by
  obtain ⟨hbytes, -, hkeep, -⟩ := hs
  obtain ⟨hparams, -⟩ := hkeep .run (by decide)
  obtain ⟨haddr, hpart⟩ := part_aligned ha hi halign
  rw [readBytes_of_lookup size hpart (b := fun j => byteStored s.params.endian 8 v (i + j)) fun j hj => ?_, hparams]
  · exact valueOfBytes_part _ v hi
  · rw [haddr, Nat.add_assoc]
    exact hbytes (i + j) (by omega)

variable (hb : ∀ j < 8, backed s (a + BitVec.ofNat 64 j) = true) (hm : mode t ≠ none)
  (hu : mode t = some .user → ∀ j < 8, userAccessible t (a + BitVec.ofNat 64 j) = true)

include hb hm hu

/-- The checks of a part pass where those of the double-word did. -/
theorem part_accessOk : AccessOk (a + BitVec.ofNat 64 i) (sizeBytes size) t := by
  have hpos := sizeBytes_pos size
  obtain ⟨-, -, hkeep, -⟩ := hs
  obtain ⟨hparams, -⟩ := hkeep .run (by decide)
  refine ⟨hm, (part_aligned ha hi halign).2, fun h => hu h i (by omega), fun j hj => ?_⟩
  rw [BitVec.add_assoc, ← BitVec.ofNat_add, backed, hparams]
  exact hb (i + j) (by omega)

/-- A load of a part completes with the field that the part is. -/
theorem load_part (hc : CanAdvance t) (rd : Reg) {b w : Word} (hat : b = a + BitVec.ofNat 64 i)
    (hw : partOf s.params.endian v i (sizeBytes size) = w) :
    ∃ u, load b size (fun s v => writeGpr s rd v) t = .next u ∧ GprResult rd w t u := by
  rw [hat, ← hw, ← valueOfBytes_readBytes_part hs ha hi halign]
  exact load_result rd id (part_accessOk hs ha hi halign hb hm hu) hc

end

/-- Settles O45: SD stores the eight bytes, and each load reads the field that its bytes are. -/
theorem doubleWordReadBackInParts : Obligations.DoubleWordReadBackInParts := by
  intro rt rs rd rb offset o s t h hok hm hu hc
  have hs : StoreResult (addressOf s rs offset) 8 (readGpr s rt) s t := storeResult_of_store (size := .dword) hok h
  obtain ⟨-, ha, -, hb⟩ := hok
  have part (size : Size) (i : Nat) (hi : i + sizeBytes size ≤ 8) (halign : i % sizeBytes size = 0) {b w : Word} :=
    load_part hs ha hi halign hb hm hu hc rd (b := b) (w := w)
  refine ⟨fun i hi hat => part .byte i hi (Nat.mod_one i) hat ?_,
    fun hat => ⟨part .word 0 (by decide) rfl ?_ ?_, part .dword 0 (by decide) rfl ?_ (partOf_whole _ _)⟩,
    fun hat => part .word 4 (by decide) rfl hat ?_⟩
  · cases s.params.endian with
    | big => exact partOf_big_byte _ i
    | little => rfl
  · exact hat.trans (BitVec.add_zero _).symm
  · cases s.params.endian <;> rfl
  · exact hat.trans (BitVec.add_zero _).symm
  · cases s.params.endian <;> rfl

end Sys2Proof.Machine
end

section
/-! SUPPORT. The fields of the formats of Table 30-1, and when a word is a word of a format (spec/30_encoding.md R91). -/

namespace Sys2Proof

/-- The opcode field (R91). -/
def fieldOp (w : IWord) : BitVec 6 := w.extractLsb' 26 6

/-- The funct field; of a compare, the bits 11 and cond (R91). -/
def fieldFunct (w : IWord) : BitVec 6 := w.extractLsb' 0 6

-- The opcode and funct read back

@[simp] theorem fieldOp_rWord (op : BitVec 6) (rs rt rd sa : BitVec 5) (fn : BitVec 6) :
    fieldOp (rWord op rs rt rd sa fn) = op := by
  apply BitVec.eq_of_getLsbD_eq
  intro i hi
  simp only [fieldOp, rWord, BitVec.getLsbD_extractLsb', BitVec.getLsbD_append]
  interval_cases i <;> simp

@[simp] theorem fieldFunct_rWord (op : BitVec 6) (rs rt rd sa : BitVec 5) (fn : BitVec 6) :
    fieldFunct (rWord op rs rt rd sa fn) = fn :=
  BitVec.extractLsb'_append_eq_right

@[simp] theorem fieldOp_iWord (op : BitVec 6) (rs rt : BitVec 5) (imm : Imm) : fieldOp (iWord op rs rt imm) = op := by
  apply BitVec.eq_of_getLsbD_eq
  intro i hi
  simp only [fieldOp, iWord, BitVec.getLsbD_extractLsb', BitVec.getLsbD_append]
  interval_cases i <;> simp

@[simp] theorem fieldOp_jWord (op : BitVec 6) (index : JField) : fieldOp (jWord op index) = op :=
  BitVec.extractLsb'_append_eq_left

@[simp] theorem fieldOp_trapWord (code : TrapCode) : fieldOp (trapWord code) = 0b000000#6 := by
  apply BitVec.eq_of_getLsbD_eq
  intro i hi
  simp only [fieldOp, trapWord, BitVec.getLsbD_extractLsb', BitVec.getLsbD_append]
  interval_cases i <;> simp

@[simp] theorem fieldFunct_trapWord (code : TrapCode) : fieldFunct (trapWord code) = 0b001100#6 :=
  BitVec.extractLsb'_append_eq_right

-- The fields of a word put together

theorem rWord_fields (w : IWord) :
    rWord (fieldOp w) (fieldRs w) (fieldRt w) (fieldRd w) (fieldSa w) (fieldFunct w) = w := by
  apply BitVec.eq_of_getLsbD_eq
  intro i hi
  simp only [rWord, fieldOp, fieldRs, fieldRt, fieldRd, fieldSa, fieldFunct, BitVec.getLsbD_extractLsb', BitVec.getLsbD_append]
  interval_cases i <;> simp

theorem iWord_fields (w : IWord) : iWord (fieldOp w) (fieldRs w) (fieldRt w) (fieldImm w) = w := by
  apply BitVec.eq_of_getLsbD_eq
  intro i hi
  simp only [iWord, fieldOp, fieldRs, fieldRt, fieldImm, BitVec.getLsbD_extractLsb', BitVec.getLsbD_append]
  interval_cases i <;> simp

theorem jWord_fields (w : IWord) : jWord (fieldOp w) (fieldIndex w) = w :=
  (BitVec.extractLsb'_append_extractLsb'_eq_extractLsb' rfl).trans BitVec.extractLsb'_eq_self

theorem op_code_funct_fields (w : IWord) : fieldOp w ++ fieldCode w ++ fieldFunct w = w := by
  apply BitVec.eq_of_getLsbD_eq
  intro i hi
  simp only [fieldOp, fieldCode, fieldFunct, BitVec.getLsbD_extractLsb', BitVec.getLsbD_append]
  interval_cases i <;> simp

-- The condition codes lie in the upper bits of sa and rt

/-- cc of a compare is the upper part of sa. -/
theorem fieldCompareCc_eq (w : IWord) : fieldCompareCc w = (fieldSa w).extractLsb' 2 3 := by
  ext i hi
  simp [fieldCompareCc, fieldSa, show 2 + i < 5 by omega, ← Nat.add_assoc]

/-- cc of an FP branch is the upper part of rt. -/
theorem fieldBranchCc_eq (w : IWord) : fieldBranchCc w = (fieldRt w).extractLsb' 2 3 := by
  ext i hi
  simp [fieldBranchCc, fieldRt, show 2 + i < 5 by omega, ← Nat.add_assoc]

/-- A compare's sa field is cc above two zeros. -/
theorem compareCc_append_eq_iff : ∀ (cc : Cc) (x : BitVec 5),
    cc ++ 0b00#2 = x ↔ x &&& 3#5 = 0#5 ∧ x.extractLsb' 2 3 = cc := by decide

/-- An FP branch's rt field is cc above nd = 0 and tf. -/
theorem branchCc_append_eq_iff : ∀ (cc : Cc) (tf : BitVec 1) (x : BitVec 5),
    cc ++ 0b0#1 ++ tf = x ↔ x &&& 3#5 = 0#4 ++ tf ∧ x.extractLsb' 2 3 = cc := by decide

-- When a word is a word of a format

theorem rWord_eq_iff {op : BitVec 6} {rs rt rd sa : BitVec 5} {fn : BitVec 6} {w : IWord} :
    rWord op rs rt rd sa fn = w ↔
      fieldOp w = op ∧ fieldRs w = rs ∧ fieldRt w = rt ∧ fieldRd w = rd ∧ fieldSa w = sa ∧ fieldFunct w = fn := by
  constructor
  · rintro rfl; simp
  · rintro ⟨rfl, rfl, rfl, rfl, rfl, rfl⟩; exact rWord_fields w

theorem iWord_eq_iff {op : BitVec 6} {rs rt : BitVec 5} {imm : Imm} {w : IWord} :
    iWord op rs rt imm = w ↔ fieldOp w = op ∧ fieldRs w = rs ∧ fieldRt w = rt ∧ fieldImm w = imm := by
  constructor
  · rintro rfl; simp
  · rintro ⟨rfl, rfl, rfl, rfl⟩; exact iWord_fields w

theorem jWord_eq_iff {op : BitVec 6} {index : JField} {w : IWord} :
    jWord op index = w ↔ fieldOp w = op ∧ fieldIndex w = index := by
  constructor
  · rintro rfl; simp
  · rintro ⟨rfl, rfl⟩; exact jWord_fields w

theorem trapWord_eq_iff {code : TrapCode} {w : IWord} :
    trapWord code = w ↔ fieldOp w = 0b000000#6 ∧ fieldCode w = code ∧ fieldFunct w = 0b001100#6 := by
  constructor
  · rintro rfl; simp
  · rintro ⟨hop, rfl, hfn⟩
    have h := op_code_funct_fields w
    rwa [hop, hfn] at h

theorem compareWord_eq_iff {fmt ft fs : BitVec 5} {cc : Cc} {cond : BitVec 4} {w : IWord} :
    compareWord fmt ft fs cc cond = w ↔ fieldOp w = 0b010001#6 ∧ fieldRs w = fmt ∧ fieldRt w = ft ∧ fieldRd w = fs ∧
      (fieldSa w &&& 3#5 = 0#5 ∧ fieldCompareCc w = cc) ∧ fieldFunct w = 0b11#2 ++ cond := by
  rw [compareWord_eq, rWord_eq_iff, fieldCompareCc_eq, ← compareCc_append_eq_iff, eq_comm (a := fieldSa w)]

theorem fpBranchWord_eq_iff {cc : Cc} {tf : BitVec 1} {offset : Imm} {w : IWord} :
    fpBranchWord cc tf offset = w ↔ fieldOp w = 0b010001#6 ∧ fieldRs w = 0b01000#5 ∧
      (fieldRt w &&& 3#5 = 0#4 ++ tf ∧ fieldBranchCc w = cc) ∧ fieldImm w = offset := by
  rw [fpBranchWord_eq, iWord_eq_iff, fieldBranchCc_eq, ← branchCc_append_eq_iff, eq_comm (a := fieldRt w)]

/-- ERET has no operand (R281). -/
theorem coWord_eret : coWord 0b011000#6 = rWord 0b010000#6 0b10000#5 0b00000#5 0b00000#5 0b00000#5 0b011000#6 := by decide

end Sys2Proof
end

section
/-! SUPPORT. The decoder and the encoder say the same of a word (spec/30_encoding.md R91, R101, R104): a row of the opcode table matches
the words of its instruction and no others, and no other row matches them. -/

namespace Sys2Proof

-- One row at most

/-- Some bit that both rows fix differs between them. -/
abbrev OpcodeRow.Apart (r q : OpcodeRow) : Prop := r.pattern &&& q.mask ≠ q.pattern &&& r.mask

theorem opcodeRows_apart : opcodeRows.Pairwise OpcodeRow.Apart := by decide

/-- A word that two rows match agrees with both in the bits that both fix. -/
theorem OpcodeRow.not_apart_of_matches {r q : OpcodeRow} {w : IWord} (hr : r.matches w = true) (hq : q.matches w = true) :
    ¬r.Apart q := by
  rw [OpcodeRow.matches, beq_iff_eq] at hr hq
  rw [not_not, ← hr, ← hq, BitVec.and_assoc, BitVec.and_assoc, BitVec.and_comm r.mask]

/-- No word matches two rows. -/
theorem eq_of_matches {w : IWord} {r q : OpcodeRow} (hr : r ∈ opcodeRows) (hq : q ∈ opcodeRows) (hrw : r.matches w = true)
    (hqw : q.matches w = true) : r = q := by
  have : Std.Symm OpcodeRow.Apart := ⟨fun _ _ h => h.symm⟩
  by_contra hne
  exact OpcodeRow.not_apart_of_matches hrw hqw (opcodeRows_apart.forall hr hq hne)

/-- Decoding is reading by a row that matches. -/
theorem decode_eq_ok_iff {w : IWord} {i : Instr} :
    decode w = .ok i ↔ ∃ r ∈ opcodeRows, r.matches w = true ∧ r.build w = i := by
  unfold decode
  cases hf : opcodeRows.find? (fun r => r.matches w) with
  | none => simpa using fun r hr hm => absurd hm (List.find?_eq_none.mp hf r hr)
  | some r =>
    have hr := List.mem_of_find?_eq_some hf
    have hm := List.find?_some hf
    refine ⟨fun h => ⟨r, hr, hm, by cases h; rfl⟩, ?_⟩
    rintro ⟨q, hq, hqm, rfl⟩
    rw [eq_of_matches hr hq hm hqm]

/-- A word that no row matches is refused (R104). -/
theorem decode_of_no_match {w : IWord} (h : ∀ r ∈ opcodeRows, r.matches w = false) : decode w = .error .wordOutsideCard := by
  have hf : opcodeRows.find? (fun r => r.matches w) = none := List.find?_eq_none.mpr fun r hr => by simp [h r hr]
  rw [decode, hf]

-- The row of an instruction

/-- Where the row of an instruction stands in `opcodeRows`: the rows are in the order of the constructors, without the six at
the listed places, which are C.GT, C.GE and C.NE in both formats (R101). -/
def Instr.rowPlace (i : Instr) : Nat := i.ctorIdx - [94, 95, 97, 100, 101, 103].countP (· < i.ctorIdx)

/-- Each row builds the instruction whose row it is. -/
theorem rowPlace_builds (w : IWord) : opcodeRows.map (fun r => (r.build w).rowPlace) = List.range 103 := by rfl

theorem getElem?_rowPlace_build {r : OpcodeRow} (hr : r ∈ opcodeRows) (w : IWord) :
    opcodeRows[(r.build w).rowPlace]? = some r := by
  obtain ⟨k, hk⟩ := List.mem_iff_getElem?.mp hr
  have hplace : (List.range 103)[k]? = some (r.build w).rowPlace := by
    rw [← rowPlace_builds w, List.getElem?_map, hk, Option.map_some]
  obtain ⟨_, hplace_eq⟩ := List.getElem?_eq_some_iff.mp hplace
  rw [← hplace_eq, List.getElem_range, hk]

/-- What a row builds is of the binary level. -/
theorem wellFormed_build {r : OpcodeRow} (hr : r ∈ opcodeRows) (w : IWord) : (r.build w).wellFormed = true :=
  have hall : opcodeRows.all (fun r => (r.build w).wellFormed) = true := by rfl
  List.all_eq_true.mp hall r hr

/-- A word matches a row when each of its fields does. -/
theorem OpcodeRow.matches_iff {r : OpcodeRow} {w : IWord} :
    r.matches w = true ↔
      fieldOp w &&& r.mask.extractLsb' 26 6 = r.pattern.extractLsb' 26 6 ∧
      fieldRs w &&& r.mask.extractLsb' 21 5 = r.pattern.extractLsb' 21 5 ∧
      fieldRt w &&& r.mask.extractLsb' 16 5 = r.pattern.extractLsb' 16 5 ∧
      fieldRd w &&& r.mask.extractLsb' 11 5 = r.pattern.extractLsb' 11 5 ∧
      fieldSa w &&& r.mask.extractLsb' 6 5 = r.pattern.extractLsb' 6 5 ∧
      fieldFunct w &&& r.mask.extractLsb' 0 6 = r.pattern.extractLsb' 0 6 := by
  have hand : w &&& r.mask = rWord (fieldOp w &&& fieldOp r.mask) (fieldRs w &&& fieldRs r.mask) (fieldRt w &&& fieldRt r.mask)
      (fieldRd w &&& fieldRd r.mask) (fieldSa w &&& fieldSa r.mask) (fieldFunct w &&& fieldFunct r.mask) := by
    rw [← rWord_and, rWord_fields, rWord_fields]
  rw [OpcodeRow.matches, beq_iff_eq, hand, rWord_eq_iff]
  simp only [eq_comm, fieldOp, fieldRs, fieldRt, fieldRd, fieldSa, fieldFunct]

/-- A mask that fixes a whole field. -/
@[simp] theorem and_ones_six (x : BitVec 6) : x &&& 63#6 = x := BitVec.and_allOnes

@[simp] theorem and_ones_five (x : BitVec 5) : x &&& 31#5 = x := BitVec.and_allOnes

/-- `r` is the row of `i`: it matches the word of `i` and reads `i` from it, and reads `i` from no other word. -/
def OpcodeRow.Encodes (r : OpcodeRow) (i : Instr) : Prop :=
  ∀ w, encode i = some w ↔ r.matches w = true ∧ r.build w = i

/-- Every instruction of the binary level has a row. Both sides name the same fields of the word, those that the row fixes and
those that hold the operands, once in the order of the format and once in the order of the row and the operands. -/
theorem exists_row_encodes {i : Instr} (h : i.wellFormed = true) : ∃ r, opcodeRows[i.rowPlace]? = some r ∧ r.Encodes i := by
  cases i
  case cNeS | cNeD | cGtS | cGeS | cGtD | cGeD => cases h
  -- R format
  case daddu | dsubu | dmult | dmultu | ddiv | ddivu | madd | mfhi | mflo | mthi | mtlo | mfc0 | mtc0 | dmfc0
      | dmtc0 | mfc1 | mtc1 | dmfc1 | dmtc1 | movS | movD | and | or | xor | nor | dsllv | dsrlv | dsrav | dsll
      | dsrl | dsra | jr | jalr | movz | movn | slt | sltu | addD | addS | addPS | subD | subS | subPS | mulD | mulS
      | mulPS | divD | divS | divPS | maddD | maddS | maddPS | cvtSD | cvtSW | cvtSL | cvtDS | cvtDW | cvtDL | cvtWS
      | cvtWD | cvtLS | cvtLD =>
    refine ⟨_, rfl, fun w => ?_⟩
    simp [encode, OpcodeRow.matches_iff, rWord_eq_iff]
    tauto
  -- I format
  case lb | lbu | lh | lhu | lw | lwu | ld | sb | sh | sw | sd | lS | lD | lui | sS | sD | daddiu | andi | ori
      | xori | blez | bltz | bgez | bgtz | slti | sltiu =>
    refine ⟨_, rfl, fun w => ?_⟩
    simp [encode, OpcodeRow.matches_iff, iWord_eq_iff]
    tauto
  case beq | bne => exact ⟨_, rfl, fun w => by simp [encode, OpcodeRow.matches_iff, iWord_eq_iff]⟩
  -- The formats with a field of another width
  case j | jal => exact ⟨_, rfl, fun w => by simp [encode, OpcodeRow.matches_iff, jWord_eq_iff]⟩
  case cLtS | cLeS | cEqS | cLtD | cLeD | cEqD =>
    refine ⟨_, rfl, fun w => ?_⟩
    simp [encode, OpcodeRow.matches_iff, compareWord_eq_iff]
    tauto
  case bc1t | bc1f =>
    refine ⟨_, rfl, fun w => ?_⟩
    simp [encode, OpcodeRow.matches_iff, fpBranchWord_eq_iff]
    tauto
  case trap =>
    refine ⟨_, rfl, fun w => ?_⟩
    simp [encode, OpcodeRow.matches_iff, trapWord_eq_iff]
    tauto
  -- No operand
  case eret => exact ⟨_, rfl, fun w => by simp [encode, OpcodeRow.matches_iff, coWord_eret, rWord_eq_iff]⟩
  case nop => exact ⟨_, rfl, fun w => by simp [encode, OpcodeRow.matches_iff, rWord_eq_iff]⟩

/-- The word of an instruction of the binary level is the word that decodes to it, and no word decodes to another instruction. -/
theorem decode_eq_ok_iff_encode {w : IWord} {i : Instr} : decode w = .ok i ↔ i.wellFormed = true ∧ encode i = some w := by
  rw [decode_eq_ok_iff]
  constructor
  · rintro ⟨r, hr, hm, rfl⟩
    have hwf := wellFormed_build hr w
    obtain ⟨q, hq, henc⟩ := exists_row_encodes hwf
    obtain rfl : r = q := Option.some_inj.mp ((getElem?_rowPlace_build hr w).symm.trans hq)
    exact ⟨hwf, (henc w).mpr ⟨hm, rfl⟩⟩
  · rintro ⟨hwf, he⟩
    obtain ⟨r, hr, henc⟩ := exists_row_encodes hwf
    exact ⟨r, List.mem_of_getElem? hr, (henc w).mp he⟩

/-- All instructions but C.NE have a word (R103). -/
theorem isSome_encode (i : Instr) : (encode i).isSome = i.hasWord := by
  cases i <;> rfl

/-- Settles O1: the row of the instruction reads it back from its word, and no other row matches that word. -/
theorem decodeUndoesEncode : Obligations.DecodeUndoesEncode := by
  intro i hwf
  have hsome : (encode i).isSome = true := (isSome_encode i).trans (Bool.and_eq_true_iff.mp hwf).1
  obtain ⟨w, hw⟩ := Option.isSome_iff_exists.mp hsome
  exact ⟨w, hw, decode_eq_ok_iff_encode.mpr ⟨hwf, hw⟩⟩

/-- Settles O2: a row matches the words of the instruction it reads and no others. -/
theorem encodeUndoesDecode : Obligations.EncodeUndoesDecode :=
  fun _ _ => decode_eq_ok_iff_encode.mp

/-- Settles O3: a word that two rows match would agree with both in a bit where they differ. -/
theorem atMostOneRowMatches : Obligations.AtMostOneRowMatches :=
  ⟨fun _ _ _ hr hq hrw hqw => congrArg OpcodeRow.mnemonic (eq_of_matches hr hq hrw hqw), fun _ => decode_of_no_match⟩

end Sys2Proof
end

section
/-! SUPPORT. The words and the meaning of the compares (spec/30_encoding.md R103), and the offsets and jump fields of the assembler
(R97, R98). -/

namespace Sys2Proof.Machine

-- The compares (R103)

/-- A compare word with its fixed fields joined, as R103 writes it. -/
theorem compareWord_eq_joined (fmt ft fs : BitVec 5) (cc : Cc) (cond : BitVec 4) :
    compareWord fmt ft fs cc cond = (0b010001#6 ++ fmt) ++ ft ++ fs ++ cc ++ (0b0011#4 ++ cond) := by
  apply BitVec.eq_of_getLsbD_eq
  intro i hi
  simp only [compareWord, BitVec.getLsbD_append]
  interval_cases i <;> simp

/-- No word decodes to an instruction that is not of the binary level (R101). -/
theorem decode_ne_of_not_wellFormed {i : Instr} (h : i.wellFormed = false) (w : IWord) : decode w ≠ .ok i := fun hd => by
  obtain ⟨hwf, -⟩ := decode_eq_ok_iff_encode.mp hd
  rw [h] at hwf
  cases hwf

/-- The result of a compare. -/
theorem advance_writeFcc_result {s : State} (hc : CanAdvance s) (cc : Cc) (b : Bool) :
    ∃ t, advance (writeFcc s cc b) = .next t ∧ FccResult cc b s t := by
  refine ⟨_, advance_next hc, fun c => readFcc_writeFcc s cc c b, fun p hp => ?_, rfl, rfl⟩
  cases p with
  | fccs => simp at hp
  | gprs | fprs | mem => exact fun _ => rfl
  | hi | lo | status | cause | epc | badVAddr => rfl
  | run => exact ⟨rfl, rfl⟩

/-- Settles O4: the words by their fields, C.GT and C.GE by the meaning of C.LT and C.LE with the sources exchanged. -/
theorem compareConditionsInWords : Obligations.CompareConditionsInWords := fun cc fs ft _ =>
  have joined (fmt : BitVec 5) (cond : BitVec 4) := congrArg some (compareWord_eq_joined fmt ft fs cc cond)
  ⟨joined 0b10000 0b0010, joined 0b10000 0b1100, joined 0b10000 0b1110, joined 0b10001 0b0010, joined 0b10001 0b1100,
    joined 0b10001 0b1110, rfl, rfl, rfl, rfl, rfl, decode_ne_of_not_wellFormed rfl, rfl, rfl, rfl, rfl, rfl,
    decode_ne_of_not_wellFormed rfl, fun hc => advance_writeFcc_result hc cc _, fun hc => advance_writeFcc_result hc cc _⟩

-- Branch offsets (R98)

/-- The assembled offset is the exact quotient: where there is none in 16 bits, there is no offset. -/
theorem assembleBranch_eq_ok_iff {pc label : Word} {offset : Imm} :
    assembleBranch pc label = .ok offset ↔ 4 * offset.toInt = (label - (pc + 4)).toInt := by
  have hlo : -32768 ≤ offset.toInt := BitVec.le_toInt offset
  have hhi : offset.toInt < 32768 := BitVec.toInt_lt
  simp only [assembleBranch]
  split
  case isTrue hd =>
    have hq : (BitVec.ofInt 16 ((label - (pc + 4)).toInt / 4)).toInt = (label - (pc + 4)).toInt / 4 :=
      BitVec.toInt_ofInt_eq_self (by decide) (by omega) (by omega)
    rw [Except.ok.injEq, ← BitVec.toInt_inj, hq]
    omega
  case isFalse hd =>
    refine ⟨nofun, fun h => absurd ?_ hd⟩
    omega

/-- Four times the offset, as a double-word. -/
theorem toInt_byteOffset (offset : Imm) : ((offset ++ 0b00#2).signExtend 64).toInt = 4 * offset.toInt := by
  rw [BitVec.toInt_signExtend_of_le (by decide), BitVec.toInt_append_zero]
  omega

/-- Settles O6: the offset is the exact quotient, so four times it is the way from pc + 4 to the label. -/
theorem branchOffsetReachesLabel : Obligations.BranchOffsetReachesLabel := by
  intro pc label
  refine ⟨fun offset h => ?_, fun ⟨k, hlo, hhi, hk⟩ => ?_, fun ⟨offset, h⟩ => ?_⟩
  · have hq := assembleBranch_eq_ok_iff.mp h
    refine ⟨hq, ?_⟩
    rw [BitVec.eq_of_toInt_eq ((toInt_byteOffset offset).trans hq), BitVec.add_comm, BitVec.sub_add_cancel]
  · refine ⟨BitVec.ofInt 16 k, assembleBranch_eq_ok_iff.mpr ?_⟩
    rw [hk, BitVec.toInt_ofInt_eq_self (by decide) (by omega) (by omega)]
  · exact ⟨offset.toInt, BitVec.le_toInt offset, Int.le_of_lt_add_one BitVec.toInt_lt, (assembleBranch_eq_ok_iff.mp h).symm⟩

-- Jump fields (R97)

/-- There is a field where label and jump lie in one 256 MB region, and it is bits 27..2 of the label. -/
theorem assembleJump_eq_ok_iff {pc label : Word} {index : JField} :
    assembleJump pc label = .ok index ↔ label.extractLsb' 28 36 = pc.extractLsb' 28 36 ∧ label.extractLsb' 2 26 = index := by
  have hfield : (label >>> 2).setWidth 26 = label.extractLsb' 2 26 := by
    ext i hi
    simp
  unfold assembleJump
  split
  case isTrue h => rw [Except.ok.injEq, hfield, and_iff_right h]
  case isFalse h => exact ⟨nofun, fun ⟨hregion, _⟩ => absurd hregion h⟩

/-- An address is its region, the 26 bits of the jump field, and the two bits below. -/
theorem region_append_field_append_low (a : Word) : a.extractLsb' 28 36 ++ a.extractLsb' 2 26 ++ a.extractLsb' 0 2 = a := by
  have hhigh : a.extractLsb' 28 36 ++ a.extractLsb' 2 26 = a.extractLsb' 2 62 :=
    BitVec.extractLsb'_append_extractLsb'_eq_extractLsb' rfl
  rw [hhigh]
  exact (BitVec.extractLsb'_append_extractLsb'_eq_extractLsb' rfl).trans BitVec.extractLsb'_eq_self

/-- The field as R97 computes it, by a shift and a mask. -/
theorem setWidth_jumpField (a : Word) : (a.extractLsb' 2 26).setWidth 64 = (a >>> 2) &&& 0x3FFFFFF := by
  apply BitVec.eq_of_toNat_eq
  rw [BitVec.toNat_setWidth, BitVec.extractLsb'_toNat, BitVec.toNat_and, BitVec.toNat_ushiftRight,
    show (0x3FFFFFF : Word).toNat = 2 ^ 26 - 1 from rfl, Nat.and_two_pow_sub_one_eq_mod]
  omega

/-- Settles O7: the region of the jump, the field and two zeros are the three parts of a word-aligned label. -/
theorem jumpFieldReachesLabel : Obligations.JumpFieldReachesLabel := by
  intro pc label
  refine ⟨⟨fun ⟨_, h⟩ => (assembleJump_eq_ok_iff.mp h).1, fun h => ⟨_, assembleJump_eq_ok_iff.mpr ⟨h, rfl⟩⟩⟩, fun index h => ?_⟩
  obtain ⟨hregion, rfl⟩ := assembleJump_eq_ok_iff.mp h
  refine ⟨setWidth_jumpField label, fun halign => ?_⟩
  have hlow : label.extractLsb' 0 2 = 0b00#2 := BitVec.eq_of_toNat_eq (by simpa using halign)
  rw [← hregion, ← hlow, region_append_field_append_low]

-- Words written out (R100)

/-- Settles O5: the decoder run on each word. -/
theorem cardWordsDecode : Obligations.CardWordsDecode := by
  unfold Obligations.CardWordsDecode
  decide

end Sys2Proof.Machine
end

section
/-! SUPPORT. The load-store family (spec/40_load_store.md R120 to R136): what a load reads and writes, what a store writes, and
where each stops. -/

namespace Sys2Proof.Machine

-- What stops an access (R66, R67)

theorem load_of_check_error {s : State} {a : Word} {size : Size} {x : Stop} (write : State → Word → State)
    (h : checkAccess a (sizeBytes size) (.addressErrorLoad a) (.busErrorData a) s = .error x) :
    load a size write s = stopWith s x := by
  simp only [load, memRead, h]

theorem store_of_check_error {s : State} {a : Word} {size : Size} {x : Stop} (v : Word)
    (h : checkAccess a (sizeBytes size) (.addressErrorStore a) (.busErrorData a) s = .error x) :
    store a size v s = stopWith s x := by
  simp only [store, memWrite, h]

/-- What stops a load does not depend on the register it writes. -/
theorem load_loadStops (a : Word) (size : Size) (write : State → Word → State) (s : State) :
    LoadStops a (sizeBytes size) s (load a size write s) := by
  intro hm
  refine ⟨fun h => ?_, fun ha hu hb => ?_⟩
  · rw [load_of_check_error write (checkAccess_eq_bad hm h)]
    exact raise_raises _ s
  · rw [load_of_check_error write (checkAccess_eq_bus hm ha hu hb)]
    exact raise_raises _ s

/-- What stops a store does not depend on the value it stores. -/
theorem store_storeStops (a : Word) (size : Size) (v : Word) (s : State) :
    StoreStops a (sizeBytes size) s (store a size v s) := by
  intro hm
  refine ⟨fun h => ?_, fun ha hu hb => ?_, fun hok htext => ?_⟩
  · rw [store_of_check_error v (checkAccess_eq_bad hm h)]
    exact raise_raises _ s
  · rw [store_of_check_error v (checkAccess_eq_bus hm ha hu hb)]
    exact raise_raises _ s
  · rw [store_of_accessOk v hok, if_pos]
    simpa [someByte, byteAddr] using htext

-- The bytes a load reads (R50, R63)

/-- The byte that a read at `a` finds at offset i: what memory lists there, or a free value. -/
def byteRead (s : State) (a : Word) (i : Nat) : Byte :=
  (s.mem.lookup (byteAddr a i).toNat).getD ((any64 s).extractLsb' (8 * i) 8)

theorem readBytes_eq_map_byteRead (s : State) (a : Word) (k : Nat) : readBytes s a k = (List.range k).map (byteRead s a) := rfl

/-- An aligned access reads the bytes that memory holds. -/
theorem holds_byteRead {s : State} {a : Word} (size : Size) (ha : a.toNat % sizeBytes size = 0) :
    Holds s a (sizeBytes size) (byteRead s a) := by
  intro i hi x hx
  rw [byteRead, byteAddr_toNat a i _ (sizeBytes_dvd size) ha hi, hx, Option.getD_some]

-- The value of the bytes, by the size of the access and the byte order (R63)

theorem valueOfBytes_byte (e : Endian) (b : Nat → Byte) :
    valueOfBytes e ((List.range (sizeBytes .byte)).map b) = (b 0).setWidth 64 := by
  cases e <;> exact joinBytes_one _

theorem valueOfBytes_half (e : Endian) (b : Nat → Byte) :
    valueOfBytes e ((List.range (sizeBytes .half)).map b) = (halfOf e b).setWidth 64 := by
  cases e <;> exact joinBytes_two _ _

theorem valueOfBytes_word (e : Endian) (b : Nat → Byte) :
    valueOfBytes e ((List.range (sizeBytes .word)).map b) = (wordOf e b).setWidth 64 := by
  cases e <;> exact joinBytes_four _ _ _ _

theorem valueOfBytes_dword (e : Endian) (b : Nat → Byte) :
    valueOfBytes e ((List.range (sizeBytes .dword)).map b) = dwordOf e b := by
  cases e <;> exact joinBytes_eight _ _ _ _ _ _ _ _

/-- A signed load extends the datum itself, though the read hands it over zero-extended. -/
theorem sextLow_of_eq_setWidth {n : Nat} {v : Word} {x : BitVec n} (hn : n ≤ 64) (h : v = x.setWidth 64) :
    sextLow n v = x.signExtend 64 := by
  rw [sextLow, h, BitVec.setWidth_setWidth_of_le x hn, BitVec.setWidth_eq]

-- Loads and stores that go through (R120)

/-- The result of a sequential instruction that writes a floating-point register, after a read of memory, which only draws. -/
theorem advance_writeFpr_result {s u : State} (hu : u = s ∨ u = drawn s) (hc : CanAdvance s) (fd : FReg) (v : Word) :
    ∃ t, advance (writeFpr u fd v) = .next t ∧ FprResult fd v s t := by
  obtain ⟨d, rfl⟩ : ∃ d, u = { s with draws := d } := by
    obtain rfl | rfl := hu <;> exact ⟨_, rfl⟩
  refine ⟨_, advance_next hc, fun r => readFpr_writeFpr _ fd r v, fun p hp => ?_, rfl, rfl⟩
  cases p with
  | fprs => simp at hp
  | gprs | fccs | mem => exact fun _ => rfl
  | hi | lo | status | cause | epc | badVAddr => rfl
  | run => exact ⟨rfl, rfl⟩

/-- A load whose checks pass reads bytes that memory holds, and leaves of them what writing its register leaves. -/
theorem load_holds {s : State} {a : Word} {size : Size} {write : State → Word → State} {P : (Nat → Byte) → State → Prop}
    (ha : AccessOk a (sizeBytes size) s)
    (hw : ∀ b u, u = s ∨ u = drawn s → ∃ t,
      advance (write u (valueOfBytes s.params.endian ((List.range (sizeBytes size)).map b))) = .next t ∧ P b t) :
    ∃ b, Holds s a (sizeBytes size) b ∧ ∃ t, load a size write s = .next t ∧ P b t := by
  have ⟨_, halign, _⟩ := ha
  refine ⟨byteRead s a, holds_byteRead size halign, ?_⟩
  simp only [load, memRead, checkAccess_ok.mpr ha, readBytes_eq_map_byteRead]
  exact hw _ _ (afterRead_cases s a _)

/-- A load into a general register writes what `extend` makes of the bytes. -/
theorem load_gprResult {s : State} {a : Word} (size : Size) (rd : Reg) {extend : Word → Word} {value : (Nat → Byte) → Word}
    (hv : ∀ b, extend (valueOfBytes s.params.endian ((List.range (sizeBytes size)).map b)) = value b)
    (ha : AccessOk a (sizeBytes size) s) (hc : CanAdvance s) :
    ∃ b, Holds s a (sizeBytes size) b ∧
      ∃ t, load a size (fun s v => writeGpr s rd (extend v)) s = .next t ∧ GprResult rd (value b) s t :=
  load_holds ha fun b _ hu => hv b ▸ advance_writeGpr_result hu hc rd _

/-- A load into a floating-point register writes the bytes. -/
theorem load_fprResult {s : State} {a : Word} (size : Size) (fd : FReg) {value : (Nat → Byte) → Word}
    (hv : ∀ b, valueOfBytes s.params.endian ((List.range (sizeBytes size)).map b) = value b)
    (ha : AccessOk a (sizeBytes size) s) (hc : CanAdvance s) :
    ∃ b, Holds s a (sizeBytes size) b ∧
      ∃ t, load a size (fun s v => writeFpr s fd v) s = .next t ∧ FprResult fd (value b) s t :=
  load_holds ha fun b _ hu => hv b ▸ advance_writeFpr_result hu hc fd _

/-- A store outside the program text completes. -/
theorem store_storeResult {s : State} {a : Word} (size : Size) (v : Word) (ha : AccessOk a (sizeBytes size) s)
    (ht : OutsideText a (sizeBytes size) s) (hc : CanAdvance s) :
    ∃ t, store a size v s = .next t ∧ StoreResult a (sizeBytes size) v s t := by
  have hout : ¬someByte a (sizeBytes size) (inText s) = true := by simpa [someByte, byteAddr] using ht
  have hnext := (store_of_accessOk v ha).trans ((if_neg hout).trans (advance_next hc))
  exact ⟨_, hnext, storeResult_of_store ha hnext⟩

/-- Settles O41: each load writes its datum, extended as its name says, and what stops it depends on its size alone. -/
theorem integerLoads : Obligations.IntegerLoads := by
  intro rd rs offset s
  have byte := valueOfBytes_byte s.params.endian
  have half := valueOfBytes_half s.params.endian
  have word := valueOfBytes_word s.params.endian
  have dword := valueOfBytes_dword s.params.endian
  have signedByte b := sextLow_of_eq_setWidth (by decide) (byte b)
  have signedHalf b := sextLow_of_eq_setWidth (by decide) (half b)
  have signedWord b := sextLow_of_eq_setWidth (by decide) (word b)
  have stops (size : Size) (write : State → Word → State) := load_loadStops (addressOf s rs offset) size write s
  exact
    ⟨rfl, load_gprResult .byte rd signedByte, stops .byte _,
    rfl, load_gprResult .byte rd byte, stops .byte _,
    rfl, load_gprResult .half rd signedHalf, stops .half _,
    rfl, load_gprResult .half rd half, stops .half _,
    rfl, load_gprResult .word rd signedWord, stops .word _,
    rfl, load_gprResult .word rd word, stops .word _,
    rfl, load_gprResult .dword rd dword, stops .dword _⟩

/-- Settles O42: the read hands the word over zero-extended, and L.S and L.D write what was read. -/
theorem floatingPointLoads : Obligations.FloatingPointLoads := fun fd _ _ s =>
  ⟨rfl, load_fprResult .word fd (valueOfBytes_word s.params.endian), load_loadStops _ .word _ s,
    rfl, load_fprResult .dword fd (valueOfBytes_dword s.params.endian), load_loadStops _ .dword _ s⟩

/-- Settles O43: the four differ in the size of the store alone. -/
theorem integerStores : Obligations.IntegerStores := fun _ _ _ s =>
  ⟨rfl, store_storeResult .byte _, store_storeStops _ .byte _ s,
    rfl, store_storeResult .half _, store_storeStops _ .half _ s,
    rfl, store_storeResult .word _, store_storeStops _ .word _ s,
    rfl, store_storeResult .dword _, store_storeStops _ .dword _ s⟩

/-- Settles O44: a store takes the low bytes of f[FT] as it does those of a general register. -/
theorem floatingPointStores : Obligations.FloatingPointStores := fun _ _ _ s =>
  ⟨rfl, store_storeResult .word _, store_storeStops _ .word _ s,
    rfl, store_storeResult .dword _, store_storeStops _ .dword _ s⟩

/-- Settles O39: LUI writes a constant, and reads nothing. -/
theorem loadUpperImmediate : Obligations.LoadUpperImmediate := fun rd imm _ =>
  ⟨rfl, fun hc => advance_writeGpr_result (.inl rfl) hc rd (luiValue imm)⟩

end Sys2Proof.Machine
end

section
/-! SUPPORT. The arithmetic family (spec/41_arithmetic.md R141 to R150): what a sequential instruction that writes hi and lo
leaves, and the integers that its products, quotients and sums are. -/

namespace Sys2Proof.Machine

-- Words of format R, their last fields joined (Table 30-1)

theorem rWord_join_sa (opcode funct : BitVec 6) (rs rt rd sa : BitVec 5) :
    rWord opcode rs rt rd sa funct = opcode ++ rs ++ rt ++ rd ++ (sa ++ funct) :=
  BitVec.append_assoc

theorem rWord_join_rd (opcode funct : BitVec 6) (rs rt rd sa : BitVec 5) :
    rWord opcode rs rt rd sa funct = opcode ++ rs ++ rt ++ (rd ++ (sa ++ funct)) :=
  (rWord_join_sa opcode funct rs rt rd sa).trans BitVec.append_assoc

-- hi and lo (R33)

/-- The result of a sequential instruction that writes hi and lo, after any number of draws. -/
theorem advance_writeHiLo_result {s : State} (draws : Nat) {h l : Word} {P : Word → Word → Prop} (hc : CanAdvance s)
    (hP : P h l) : ∃ t, advance (writeHiLo { s with draws := draws } h l) = .next t ∧ HiLoResult P s t := by
  refine ⟨_, advance_next hc, hP, fun p hp => ?_, rfl, rfl⟩
  cases p with
  | hi | lo => simp at hp
  | gprs | fprs | fccs | mem => exact fun _ => rfl
  | status | cause | epc | badVAddr => rfl
  | run => exact ⟨rfl, rfl⟩

/-- hi and lo hold the two halves of what `writeProduct` writes. -/
theorem advance_writeProduct_result {s : State} {p : BitVec 128} {P : BitVec 128 → Prop} (hc : CanAdvance s) (hP : P p) :
    ∃ t, advance (writeProduct s p) = .next t ∧ HiLoResult (fun hi lo => P (hi ++ lo)) s t := by
  have hhalves : p.extractLsb' 64 64 ++ p.extractLsb' 0 64 = p :=
    (BitVec.extractLsb'_append_extractLsb'_eq_extractLsb' rfl).trans BitVec.extractLsb'_eq_self
  exact advance_writeHiLo_result s.draws hc (hhalves.symm ▸ hP)

/-- Undetermined hi and lo, two draws (R149). -/
theorem advance_writeHiLoAny_result {s : State} (hc : CanAdvance s) :
    ∃ t, advance (writeHiLoAny s) = .next t ∧ HiLoResult (fun _ _ => True) s t :=
  advance_writeHiLo_result (s.draws + 1 + 1) hc trivial

-- Products (R144, R145)

/-- A signed product of double-words lies within 2^126 of 0, so 128 bits hold it. -/
theorem toInt_signExtend_mul_signExtend (a b : Word) : (a.signExtend 128 * b.signExtend 128).toInt = a.toInt * b.toInt := by
  have hlo : -2 ^ 126 ≤ a.toInt * b.toInt := BitVec.le_toInt_mul_toInt
  have hhi : a.toInt * b.toInt ≤ 2 ^ 126 := BitVec.toInt_mul_toInt_le
  rw [BitVec.toInt_mul, BitVec.toInt_signExtend_of_le (by decide), BitVec.toInt_signExtend_of_le (by decide)]
  exact Int.bmod_eq_of_le_mul_two (by omega) (by omega)

/-- An unsigned product of double-words is below 2^128. -/
theorem toNat_setWidth_mul_setWidth (a b : Word) : (a.setWidth 128 * b.setWidth 128).toNat = a.toNat * b.toNat := by
  have hlt : a.toNat * b.toNat < 2 ^ 64 * 2 ^ 64 := Nat.mul_lt_mul'' a.isLt b.isLt
  have ha : (a.setWidth 128).toNat = a.toNat := BitVec.toNat_setWidth_of_le (by decide)
  have hb : (b.setWidth 128).toNat = b.toNat := BitVec.toNat_setWidth_of_le (by decide)
  rw [BitVec.toNat_mul_of_lt (by rwa [ha, hb]), ha, hb]

/-- Settles O30: 128 bits hold either product exactly, and hi and lo are its halves. -/
theorem multiplyGivesExactProduct : Obligations.MultiplyGivesExactProduct := fun rs rt _ =>
  ⟨congrArg some (rWord_join_rd _ _ rs rt _ _),
    fun hc => advance_writeProduct_result (P := fun p => p.toInt = _) hc (toInt_signExtend_mul_signExtend _ _),
    congrArg some (rWord_join_rd _ _ rs rt _ _),
    fun hc => advance_writeProduct_result (P := fun p => p.toNat = _) hc (toNat_setWidth_mul_setWidth _ _)⟩

-- Quotients and remainders (R146, R147, R149)

/-- The truncated quotient fits 64 bits but for -2^63 / -1. -/
theorem toInt_ofInt_tdiv {a b : Word} (h : ¬(a = 0x8000000000000000 ∧ b = 0xFFFFFFFFFFFFFFFF)) :
    (BitVec.ofInt 64 (a.toInt.tdiv b.toInt)).toInt = a.toInt.tdiv b.toInt := by
  rw [← BitVec.toInt_sdiv_of_ne_or_ne a b (not_and_or.mp h), BitVec.ofInt_toInt]

/-- The remainder always fits. -/
theorem toInt_ofInt_tmod (a b : Word) : (BitVec.ofInt 64 (a.toInt.tmod b.toInt)).toInt = a.toInt.tmod b.toInt := by
  rw [← BitVec.toInt_srem, BitVec.ofInt_toInt]

/-- The remainder is smaller than the divisor (R150 c). -/
theorem abs_tmod_lt_abs (a : Int) {b : Int} (hb : b ≠ 0) : |a.tmod b| < |b| := by
  rw [Int.abs_eq_natAbs, Int.abs_eq_natAbs, Int.natAbs_tmod]
  exact Int.ofNat_lt.mpr (Nat.mod_lt _ (Int.natAbs_pos.mpr hb))

/-- The remainder has the sign of the dividend (R150 c). -/
theorem tmod_eq_zero_or_neg_iff (a b : Int) : a.tmod b = 0 ∨ (a.tmod b < 0 ↔ a < 0) := by
  by_cases hdvd : b ∣ a
  · exact .inl (Int.dvd_iff_tmod_eq_zero.mp hdvd)
  · refine .inr ?_
    rw [← Int.sign_eq_neg_one_iff_neg, Int.sign_tmod, if_neg hdvd, Int.sign_eq_neg_one_iff_neg]

/-- What DDIV does where the quotient is determined. -/
theorem exec_ddiv_of_determined {rs rt : Reg} {s : State} (hb : readGpr s rt ≠ 0)
    (hfits : ¬(readGpr s rs = 0x8000000000000000 ∧ readGpr s rt = 0xFFFFFFFFFFFFFFFF)) :
    exec (.ddiv rs rt) s = advance (writeHiLo s (BitVec.ofInt 64 ((readGpr s rs).toInt.tmod (readGpr s rt).toInt))
      (BitVec.ofInt 64 ((readGpr s rs).toInt.tdiv (readGpr s rt).toInt))) :=
  if_neg (not_or.mpr ⟨hb, hfits⟩)

/-- What DDIVU does with a divisor that is not 0. -/
theorem exec_ddivu_of_ne_zero {rs rt : Reg} {s : State} (hb : readGpr s rt ≠ 0) :
    exec (.ddivu rs rt) s = advance (writeHiLo s (readGpr s rs % readGpr s rt) (readGpr s rs / readGpr s rt)) :=
  if_neg hb

/-- A division completes whether or not its operands determine hi and lo. -/
theorem advance_ite_writeHiLoAny_result {s : State} {undetermined : Prop} [Decidable undetermined] (hc : CanAdvance s)
    (h l : Word) :
    ∃ t, (if undetermined then advance (writeHiLoAny s) else advance (writeHiLo s h l)) = .next t ∧
      HiLoResult (fun _ _ => True) s t := by
  split
  · exact advance_writeHiLoAny_result hc
  · exact advance_writeHiLo_result s.draws hc trivial

/-- Settles O31: the signed quotient and remainder fit 64 bits, and are those of the truncating division of integers. -/
theorem divideGivesQuotientAndRemainder : Obligations.DivideGivesQuotientAndRemainder := by
  intro rs rt s
  refine ⟨congrArg some (rWord_join_rd _ _ rs rt _ _), fun hc hb hfits => ?_, fun hc => advance_ite_writeHiLoAny_result hc _ _,
    congrArg some (rWord_join_rd _ _ rs rt _ _), fun hc hb => ?_, fun hc => advance_ite_writeHiLoAny_result hc _ _⟩
  · rw [Completes, exec_ddiv_of_determined hb hfits]
    refine advance_writeHiLo_result s.draws hc ?_
    rw [toInt_ofInt_tdiv hfits, toInt_ofInt_tmod]
    have hb' : (readGpr s rt).toInt ≠ 0 := BitVec.toInt_ne.mpr hb
    exact ⟨(Int.tdiv_mul_add_tmod _ _).symm, abs_tmod_lt_abs _ hb', tmod_eq_zero_or_neg_iff _ _⟩
  · rw [Completes, exec_ddivu_of_ne_zero hb]
    exact advance_writeHiLo_result s.draws hc ⟨BitVec.toNat_udiv, BitVec.toNat_umod⟩

-- Multiply-accumulate (R148)

/-- Adding a signed product in n bits is adding it to the accumulator modulo 2^n. -/
theorem add_signExtend_mul_signExtend {n m : Nat} (acc : BitVec n) (a b : BitVec m) :
    acc + a.signExtend n * b.signExtend n = BitVec.ofInt n (acc.toNat + a.toInt * b.toInt) := by
  rw [BitVec.ofInt_add, BitVec.ofInt_mul, BitVec.ofInt_natCast, BitVec.ofNat_toNat, BitVec.setWidth_eq]
  rfl

/-- The 32 bits of a double-word from bit k upward, sign-extended. -/
theorem sextLow_ushiftRight (v : Word) (k : Nat) : sextLow 32 (v >>> k) = (v.extractLsb' k 32).signExtend 64 :=
  congrArg (BitVec.signExtend 64) BitVec.setWidth_ushiftRight_eq_extractLsb

/-- The low half of a double-word, sign-extended. -/
theorem sextLow_eq_signExtend (v : Word) : sextLow 32 v = (v.extractLsb' 0 32).signExtend 64 :=
  congrArg (BitVec.signExtend 64) (BitVec.setWidth_eq_extractLsb' (by decide))

/-- MADD under `mips32`. -/
theorem exec_madd_of_mips32 {rs rt : Reg} {s : State} (hm : s.params.maddMode = .mips32) :
    exec (.madd rs rt) s = if isSextWord (readGpr s rs) && isSextWord (readGpr s rt) then
      advance (maddWord s (readGpr s rs) (readGpr s rt)) else .refused .maddOperandNot32bit := by
  simp only [exec, execMadd, hm]

/-- MADD under `wide128`. -/
theorem exec_madd_of_wide128 {rs rt : Reg} {s : State} (hm : s.params.maddMode = .wide128) :
    exec (.madd rs rt) s = advance (maddWide s (readGpr s rs) (readGpr s rt)) := by
  simp only [exec, execMadd, hm]

/-- Settles O32: one equation of bit vectors serves both widths of the accumulator. -/
theorem multiplyAccumulate : Obligations.MultiplyAccumulate := by
  intro rs rt s
  refine ⟨congrArg some (rWord_join_rd _ _ rs rt _ _), fun hm hn => ?_, fun hm hc ha hb => ?_, fun hm hc => ?_⟩
  · rw [exec_madd_of_mips32 hm, if_neg]
    exact fun h => (not_and_or.mpr hn) (isSextWord_both.mp h)
  · rw [Completes, exec_madd_of_mips32 hm, if_pos (isSextWord_both.mpr ⟨ha, hb⟩)]
    refine advance_writeHiLo_result s.draws hc ⟨_, ?_, sextLow_ushiftRight _ 32, sextLow_eq_signExtend _⟩
    rw [sextLow_eq_signExtend, sextLow_eq_signExtend, add_signExtend_mul_signExtend,
      BitVec.setWidth_eq_extractLsb' (by decide), BitVec.setWidth_eq_extractLsb' (by decide)]
  · rw [Completes, exec_madd_of_wide128 hm]
    exact advance_writeProduct_result (P := (· = _)) hc (add_signExtend_mul_signExtend _ _ _)

-- Sums and differences (R141 to R143)

/-- Settles O29: each writes one general register, as the loads do. -/
theorem addAndSubtract : Obligations.AddAndSubtract := fun rd rs rt _ s =>
  have result v (hc : CanAdvance s) := advance_writeGpr_result (.inl rfl) hc rd v
  ⟨congrArg some (rWord_join_sa _ _ rs rt rd _), result _, rfl, result _,
    congrArg some (rWord_join_sa _ _ rs rt rd _), result _⟩

end Sys2Proof.Machine
end

section
/-! SUPPORT. The special moves (spec/42_special_move.md R155 to R170): the privilege check of the c0 instructions (R160), what
the c0 moves read and write, and what a move into a floating-point register leaves. -/

namespace Sys2Proof.Machine

-- Kernel mode only (R160, R281)

/-- In Kernel mode the check passes. -/
theorem kernelOnly_of_kernel {s : State} (hm : mode s = some .kernel) (k : Result) : kernelOnly s k = k := by
  simp only [kernelOnly, hm]

/-- In User mode the check raises, whatever comes after it. -/
theorem kernelOnly_raises_of_user {s : State} (hm : mode s = some .user) (k : Result) :
    Raises (.coprocessorUnusable 0) s (kernelOnly s k) := by
  simp only [kernelOnly, hm]
  exact raise_raises _ s

theorem outsideSlot_of_noSlot {s : State} (hd : s.delay = none) (k : Result) : outsideSlot s k = k := by
  simp only [outsideSlot, hd, Option.isSome_none, Bool.false_eq_true, if_false]

/-- The privilege check comes first in every instruction of Kernel mode; ERET's delay slot is looked at before it (log 14). -/
theorem exec_eq_kernelOnly {i : Instr} {s : State} (hk : kernelInstr i = true) (hd : i = .eret → s.delay = none) :
    ∃ k, exec i s = kernelOnly s k := by
  cases i
  case mfc0 | mtc0 | dmfc0 | dmtc0 => exact ⟨_, rfl⟩
  case eret => exact ⟨_, outsideSlot_of_noSlot (hd rfl) _⟩
  all_goals cases hk

/-- Settles O24: the privilege check comes before all else that the instruction looks at. -/
theorem kernelInstructionsTrapInUserMode : Obligations.KernelInstructionsTrapInUserMode := by
  intro i s hk hm hd
  obtain ⟨k, hexec⟩ := exec_eq_kernelOnly hk hd
  rw [hexec]
  exact kernelOnly_raises_of_user hm k

-- Moves from c0 (R161, R163)

theorem readC0_eq_none {s : State} {n : CReg} (hn : ¬C0Number n) : readC0 s n = none := by
  by_contra h
  obtain ⟨p, hp⟩ := Option.ne_none_iff_exists'.mp h
  exact hn (readC0_number hp)

/-- A c0 register with a meaning reads as R40 to R43 say, and the read only draws. -/
theorem exists_readC0 (s : State) {n : CReg} (hn : C0Number n) :
    ∃ v u, readC0 s n = some (v, u) ∧ C0Reads s n v ∧ (u = s ∨ u = drawn s) := by
  obtain rfl | rfl | rfl | rfl := hn
  · exact ⟨_, _, rfl, ⟨fun _ => rfl, nofun, nofun, nofun⟩, .inl rfl⟩
  · exact ⟨_, _, rfl, ⟨nofun, fun _ => rfl, nofun, nofun⟩, .inl rfl⟩
  · exact ⟨_, _, rfl, ⟨nofun, nofun, fun _ => ⟨causeWord_excCode _ _, causeWord_bd _ _, causeWord_ce _ _⟩, nofun⟩, .inr rfl⟩
  · exact ⟨_, _, rfl, ⟨nofun, nofun, nofun, fun _ => rfl⟩, .inl rfl⟩

theorem moveFromC0_refused {s : State} {cs : CReg} (rd : Reg) (extend : Word → Word) (hm : mode s = some .kernel)
    (hn : ¬C0Number cs) : moveFromC0 rd cs extend s = .refused .c0RegisterNotModelled := by
  rw [moveFromC0, kernelOnly_of_kernel hm, readC0_eq_none hn]

theorem moveFromC0_result {s u : State} {cs : CReg} {v : Word} (rd : Reg) (extend : Word → Word) (hm : mode s = some .kernel)
    (hc : CanAdvance s) (hr : readC0 s cs = some (v, u)) (hu : u = s ∨ u = drawn s) :
    ∃ t, moveFromC0 rd cs extend s = .next t ∧ GprResult rd (extend v) s t := by
  rw [moveFromC0, kernelOnly_of_kernel hm, hr]
  exact advance_writeGpr_result hu hc rd _

/-- Settles O27: MFC0 and DMFC0 make the same read and differ in what they do to the value. -/
theorem movesFromC0 : Obligations.MovesFromC0 := by
  intro rd cs s
  refine ⟨congrArg some (rWord_join_sa _ _ _ rd cs _), congrArg some (rWord_join_sa _ _ _ rd cs _),
    fun hm => ⟨kernelOnly_raises_of_user hm _, kernelOnly_raises_of_user hm _⟩,
    fun hm hn => ⟨moveFromC0_refused rd _ hm hn, moveFromC0_refused rd id hm hn⟩, fun hm hn hc => ?_⟩
  obtain ⟨v, u, hr, hv, hu⟩ := exists_readC0 s hn
  refine ⟨v, hv, ?_, moveFromC0_result rd id hm hc hr hu⟩
  rw [← sextLow_eq_signExtend]
  exact moveFromC0_result rd (sextLow 32) hm hc hr hu

-- Moves to c0 (R162, R164)

/-- What MTC0 and DMTC0 share: `written` is the state after the write, where the number has a meaning. -/
def moveToC0 (s : State) (written : Option State) : Result :=
  kernelOnly s <|
    match written with
    | some s' => advance s'
    | none => .refused .c0RegisterNotModelled

theorem exec_mtc0 (rs : Reg) (cd : CReg) (s : State) :
    exec (.mtc0 rs cd) s = moveToC0 s (writeC0Low s cd ((readGpr s rs).setWidth 32)) := rfl

theorem exec_dmtc0 (rs : Reg) (cd : CReg) (s : State) :
    exec (.dmtc0 rs cd) s = moveToC0 s (writeC0 s cd (readGpr s rs)) := rfl

theorem moveToC0_none {s : State} (hm : mode s = some .kernel) : moveToC0 s none = .refused .c0RegisterNotModelled :=
  kernelOnly_of_kernel hm _

theorem moveToC0_some {s : State} (hm : mode s = some .kernel) (u : State) : moveToC0 s (some u) = advance u :=
  kernelOnly_of_kernel hm _

theorem writeC0_eq_none (s : State) {n : CReg} (v : Word) (hn : ¬C0Number n) : writeC0 s n v = none := by
  obtain ⟨h8, h12, h13, h14⟩ : n ≠ 8 ∧ n ≠ 12 ∧ n ≠ 13 ∧ n ≠ 14 := by simpa [C0Number] using hn
  rw [writeC0, if_neg h8, if_neg h12, if_neg h13, if_neg h14]

theorem writeC0Low_eq_none (s : State) {n : CReg} (v : BitVec 32) (hn : ¬C0Number n) : writeC0Low s n v = none := by
  have hkept : ¬(n = 8 ∨ n = 13) := fun h => hn (h.imp_right fun h13 => .inr (.inl h13))
  rw [writeC0Low, if_neg hkept]
  exact writeC0_eq_none _ _ hn

/-- A write to BadVAddr or Cause is discarded. -/
theorem writeC0_discarded (s : State) {n : CReg} (v : Word) (hn : n = 8 ∨ n = 13) : writeC0 s n v = some s := by
  obtain rfl | rfl := hn <;> rfl

theorem writeC0Low_discarded (s : State) {n : CReg} (v : BitVec 32) (hn : n = 8 ∨ n = 13) : writeC0Low s n v = some s :=
  if_pos hn

/-- The low half of what a 32-bit write of a double-word leaves is the double-word's (R38, R162). -/
theorem low_append_setWidth (x : BitVec 32) (v : Word) : (x ++ v.setWidth 32).extractLsb' 0 32 = v.extractLsb' 0 32 :=
  BitVec.extractLsb'_append_eq_right.trans (BitVec.setWidth_eq_extractLsb' (by decide))

/-- The result of a move that writes Status or EPC, after any number of draws. -/
theorem moveToC0_result {s : State} {ps : List Part} {P : State → Prop} {draws : Nat} {st ep : Word} (hm : mode s = some .kernel)
    (hc : CanAdvance s) (hst : .status ∉ ps → st = s.status) (hep : .epc ∉ ps → ep = s.epc)
    (hP : ∀ t : State, t.status = st → t.epc = ep → P t) :
    ∃ t, moveToC0 s (some { s with draws := draws, status := st, epc := ep }) = .next t ∧
      P t ∧ KeepsAllBut ps s t ∧ InOrder s t := by
  rw [moveToC0_some hm]
  refine ⟨_, advance_next hc, hP _ rfl rfl, fun p hp => ?_, rfl, rfl⟩
  cases p with
  | status => exact hst hp
  | epc => exact hep hp
  | gprs | fprs | fccs | mem => exact fun _ => rfl
  | hi | lo | cause | badVAddr => rfl
  | run => exact ⟨rfl, rfl⟩

/-- Settles O28: the write is discarded or goes to Status or EPC, whole or under an undetermined upper half. -/
theorem movesToC0 : Obligations.MovesToC0 := by
  intro rs cd s
  simp only [Completes, exec_mtc0, exec_dmtc0]
  refine ⟨congrArg some (rWord_join_sa _ _ _ rs cd _), congrArg some (rWord_join_sa _ _ _ rs cd _),
    fun hm => ⟨kernelOnly_raises_of_user hm _, kernelOnly_raises_of_user hm _⟩, fun hm hn => ?_, fun hm hc hd => ?_,
    fun hm hc hd => ?_, fun hm hc hd => ?_⟩
  · rw [writeC0Low_eq_none s _ hn, writeC0_eq_none s _ hn, moveToC0_none hm]
    exact ⟨rfl, rfl⟩
  · rw [writeC0Low_discarded s _ hd, writeC0_discarded s _ hd, moveToC0_some hm]
    exact ⟨advance_onlyAdvances_of_read (.inl rfl) hc, advance_onlyAdvances_of_read (.inl rfl) hc⟩
  · rw [hd]
    exact ⟨moveToC0_result hm hc (absurd List.mem_cons_self) (fun _ => rfl) fun _ h _ => h ▸ low_append_setWidth _ _,
      moveToC0_result hm hc (absurd List.mem_cons_self) (fun _ => rfl) fun _ h _ => h⟩
  · rw [hd]
    exact ⟨moveToC0_result hm hc (fun _ => rfl) (absurd List.mem_cons_self) fun _ _ h => h ▸ low_append_setWidth _ _,
      moveToC0_result hm hc (fun _ => rfl) (absurd List.mem_cons_self) fun _ _ h => h⟩

-- hi and lo (R155 to R158)

theorem rWord_join_rt (opcode funct : BitVec 6) (rs rt rd sa : BitVec 5) :
    rWord opcode rs rt rd sa funct = opcode ++ rs ++ (rt ++ (rd ++ (sa ++ funct))) :=
  (rWord_join_rd opcode funct rs rt rd sa).trans BitVec.append_assoc

/-- Settles O33: each copies a double-word whole. -/
theorem hiLoMoves : Obligations.HiLoMoves := fun rd rs s =>
  ⟨congrArg some (rWord_join_sa _ _ _ _ rd _), fun hc => advance_writeGpr_result (.inl rfl) hc rd s.hi,
    congrArg some (rWord_join_sa _ _ _ _ rd _), fun hc => advance_writeGpr_result (.inl rfl) hc rd s.lo,
    congrArg some (rWord_join_rt _ _ rs _ _ _), fun hc => advance_writeHiLo_result s.draws hc ⟨rfl, rfl⟩,
    congrArg some (rWord_join_rt _ _ rs _ _ _), fun hc => advance_writeHiLo_result s.draws hc ⟨rfl, rfl⟩⟩

-- Floating-point registers (R165 to R170)

/-- The result of a sequential instruction that writes the low half of a floating-point register (R38). -/
theorem advance_writeFprLow_result {s : State} (hc : CanAdvance s) (fd : FReg) (v : BitVec 32) :
    ∃ t, advance (writeFprLow s fd v) = .next t ∧ FprLowResult fd v s t := by
  refine ⟨_, advance_next hc, readFpr_writeFprLow_same s fd v, fun r => readFpr_writeFprLow_other s fd r v, fun p hp => ?_,
    rfl, rfl⟩
  cases p with
  | fprs => simp at hp
  | gprs | fccs | mem => exact fun _ => rfl
  | hi | lo | status | cause | epc | badVAddr => rfl
  | run => exact ⟨rfl, rfl⟩

/-- Settles O34: each is one write to a register file, of a double-word or of a low half. -/
theorem floatingPointMoves : Obligations.FloatingPointMoves := by
  intro rd rs fd fs s
  have word (opcode : BitVec 6) (fmt : BitVec 5) (r : Reg) (f : FReg) :=
    congrArg some (rWord_join_sa opcode 0b000000 fmt r f 0b00000)
  have low : (readGpr s rs).setWidth 32 = (readGpr s rs).extractLsb' 0 32 := BitVec.setWidth_eq_extractLsb' (by decide)
  exact ⟨word _ _ rd fs, fun hc => advance_writeGpr_result (.inl rfl) hc rd _,
    word _ _ rs fd, fun hc => low ▸ advance_writeFprLow_result hc fd _,
    word _ _ rd fs, fun hc => advance_writeGpr_result (.inl rfl) hc rd _,
    word _ _ rs fd, fun hc => advance_writeFpr_result (.inl rfl) hc fd _,
    rfl, fun hc => advance_writeFprLow_result hc fd _,
    rfl, fun hc => advance_writeFpr_result (.inl rfl) hc fd _⟩

end Sys2Proof.Machine
end

section
/-! SUPPORT. The logical family (spec/43_logical.md R176 to R182). -/

namespace Sys2Proof.Machine

/-- Settles O35: each writes one general register, the immediate forms from the field zero-extended. -/
theorem logicalInstructions : Obligations.LogicalInstructions := fun rd rs rt _ s =>
  have result v (hc : CanAdvance s) := advance_writeGpr_result (.inl rfl) hc rd v
  have word (funct : BitVec 6) := congrArg some (rWord_join_sa 0b000000 funct rs rt rd 0b00000)
  ⟨word _, result _, word _, result _, word _, result _, word _, result _,
    rfl, result _, rfl, result _, rfl, result _⟩

end Sys2Proof.Machine
end

section
/-! SUPPORT. The shift family (spec/44_shift.md R186 to R191): the bits of a double-word that was shifted. -/

namespace Sys2Proof.Machine

theorem getLsbD_word_shiftLeft (x : Word) (n : Nat) {i : Nat} (hi : i < 64) :
    (x <<< n).getLsbD i = (decide (n ≤ i) && x.getLsbD (i - n)) := by
  rw [BitVec.getLsbD_shiftLeft, decide_eq_true hi, Bool.true_and, ← decide_not, decide_eq_decide.mpr Nat.not_lt]

theorem getLsbD_word_ushiftRight (x : Word) (n i : Nat) : (x >>> n).getLsbD i = x.getLsbD (i + n) := by
  rw [BitVec.getLsbD_ushiftRight, Nat.add_comm]

/-- Copies of bit 63 enter at the top. -/
theorem getLsbD_word_sshiftRight (x : Word) (n : Nat) {i : Nat} (hi : i < 64) :
    (x.sshiftRight n).getLsbD i = if i + n < 64 then x.getLsbD (i + n) else x.getLsbD 63 := by
  rw [BitVec.getLsbD_sshiftRight, decide_eq_false (Nat.not_le.mpr hi), Nat.add_comm, BitVec.msb_eq_getLsbD_last]
  rfl

/-- Settles O36: each writes one general register, and only the source of the amount tells a variable shift from an immediate
one. -/
theorem shiftInstructions : Obligations.ShiftInstructions := fun rd rs rt sa s =>
  have result v (hc : CanAdvance s) := advance_writeGpr_result (.inl rfl) hc rd v
  have word (funct : BitVec 6) := congrArg some (rWord_join_sa 0b000000 funct rt rs rd 0b00000)
  have left n i (hi : i < 64) := getLsbD_word_shiftLeft (readGpr s rs) n hi
  have right n i (_ : i < 64) := getLsbD_word_ushiftRight (readGpr s rs) n i
  have rightArith n i (hi : i < 64) := getLsbD_word_sshiftRight (readGpr s rs) n hi
  ⟨word _, fun hc => ⟨_, result _ hc, left _⟩,
    word _, fun hc => ⟨_, result _ hc, right _⟩,
    word _, fun hc => ⟨_, result _ hc, rightArith _⟩,
    rfl, fun hc => ⟨_, result _ hc, left sa.toNat⟩,
    rfl, fun hc => ⟨_, result _ hc, right sa.toNat⟩,
    rfl, fun hc => ⟨_, result _ hc, rightArith sa.toNat⟩⟩

end Sys2Proof.Machine
end

section
/-! SUPPORT. The control-transfer family (spec/45_control_transfer.md R196 to R209): where pc and delay go after a jump, a branch
and a sequential instruction, what each leaves unchanged, and the refusal in a delay slot. -/

namespace Sys2Proof.Machine

-- Frames

theorem Part.Same.trans {s u t : State} {p : Part} (hsu : Part.Same s u p) (hut : Part.Same u t p) : Part.Same s t p := by
  cases p with
  | gprs | fprs | fccs | mem => exact fun r => (hut r).trans (hsu r)
  | hi | lo | status | cause | epc | badVAddr => exact Eq.trans hut hsu
  | run => exact ⟨hut.1.trans hsu.1, hut.2.trans hsu.2⟩

theorem KeepsAllBut.trans {ps : List Part} {s u t : State} (hsu : KeepsAllBut ps s u) (hut : KeepsAllBut ps u t) :
    KeepsAllBut ps s t :=
  fun p hp => (hsu p hp).trans (hut p hp)

theorem KeepsAllBut.weaken {ps qs : List Part} {s t : State} (h : KeepsAllBut ps s t) (hsub : ps ⊆ qs) : KeepsAllBut qs s t :=
  fun p hp => h p fun hin => hp (hsub hin)

/-- pc and delay are not parts (R34, R47). -/
theorem keepsAllBut_movePc (s : State) (pc : Word) (delay : Option Word) :
    KeepsAllBut [] s { s with pc := pc, delay := delay } := by
  intro p _
  cases p with
  | gprs | fprs | fccs | mem => exact fun _ => rfl
  | hi | lo | status | cause | epc | badVAddr => rfl
  | run => exact ⟨rfl, rfl⟩

theorem keepsAllBut_writeGpr (s : State) (rd : Reg) (v : Word) : KeepsAllBut [.gprs] s (writeGpr s rd v) := by
  intro p hp
  cases p with
  | gprs => simp at hp
  | fprs => exact readFpr_congr (writeGpr_fpr s rd v)
  | fccs => exact readFcc_congr (writeGpr_fcc s rd v)
  | mem => exact fun a => congrArg (Memory.lookup · a) (writeGpr_mem s rd v)
  | hi | lo | status | cause | epc | badVAddr => simp [Part.Same]
  | run => simp [Part.Same]

theorem readGpr_writeGpr_of_ne_zero {s : State} {rd r : Reg} {v : Word} (hrd : rd ≠ 0) :
    readGpr (writeGpr s rd v) r = if r = rd then v else readGpr s r :=
  (readGpr_writeGpr s rd r v).trans (if_congr (and_iff_left_of_imp fun he => he ▸ hrd) rfl rfl)

-- Where pc and delay go (R196 step 4)

theorem WritesOf.inOrder {i : Instr} {s u t : State} (hw : WritesOf i s u) (h : advance u = .next t) : InOrder s t := by
  rw [eq_of_advance h]
  exact ⟨by rw [hw.pc, hw.delay], rfl⟩

theorem WritesOf.transfers {i : Instr} {s u t : State} {target : Word} (hw : WritesOf i s u) (hd : s.delay = none)
    (h : transfer target u = .next t) : Transfers target s t := by
  rw [eq_of_transfer h, hw.params, hw.pc, hw.delay, hd]
  refine ⟨fun hs => ?_, fun hs => ?_⟩ <;> simp [hs]

theorem transfers_of_transfer {s t : State} {target : Word} (hd : s.delay = none) (h : transfer target s = .next t) :
    Transfers target s t :=
  WritesOf.transfers (.refl (i := .nop) s rfl) hd h

theorem fallsThrough_of_notTaken {s t : State} (hd : s.delay = none) (h : notTaken s = .next t) : FallsThrough s t := by
  rw [eq_of_notTaken h]
  refine ⟨fun hs => ?_, fun hs => ?_⟩ <;> simp [hs, hd]

/-- A jump or a taken branch moves pc and delay alone. -/
theorem keepsAllBut_of_transfer {s t : State} {target : Word} (h : transfer target s = .next t) : KeepsAllBut [] s t := by
  rw [eq_of_transfer h]
  split
  · exact keepsAllBut_movePc s _ _
  · exact keepsAllBut_movePc s _ s.delay

theorem keepsAllBut_of_notTaken {s t : State} (h : notTaken s = .next t) : KeepsAllBut [] s t := by
  rw [eq_of_notTaken h]
  split
  · exact keepsAllBut_movePc s _ _
  · exact keepsAllBut_movePc s _ s.delay

/-- Settles O50: by the outcomes of an instruction, with what each operation that ends one does to pc and delay. -/
theorem nextPcOfEveryInstruction : Obligations.NextPcOfEveryInstruction := by
  intro i s t h
  cases exec_shape i s with
  | refused q eq => rw [eq] at h; cases h
  | raised e eq =>
    obtain ⟨-, he⟩ | ⟨-, he⟩ := raise_cases e s <;> rw [eq, he] at h <;> cases h
    exact .inl ⟨e, trapEntry_entered e s⟩
  | sequential u writes eq notTransfer => exact .inr (.inr (.inr (.inr ⟨notTransfer, writes.inOrder (eq ▸ h)⟩)))
  | inSlot eq => rw [eq] at h; cases h
  | returned eq isEret noSlot =>
    rw [eq] at h
    cases h
    exact .inr (.inl ⟨isEret, rfl, noSlot, noSlot⟩)
  | jumped u target writes eq isTransfer noSlot destination =>
    exact .inr (.inr (.inl ⟨isTransfer, noSlot, target, destination, writes.transfers noSlot (eq ▸ h)⟩))
  | branched taken offset eq isTransfer noSlot case =>
    refine .inr (.inr (.inr (.inl ⟨isTransfer, noSlot, taken, offset, case, ?_⟩)))
    obtain ⟨-, ⟨rfl, -, ht⟩ | ⟨rfl, ht⟩⟩ := branch_cases (eq ▸ h)
    · exact ⟨fun _ => transfers_of_transfer noSlot ht, nofun⟩
    · exact ⟨nofun, fun _ => fallsThrough_of_notTaken noSlot ht⟩

-- The refusal in a delay slot (R196 step 2): the move of pc is refused for a wrap only

theorem eq_pcWraps_of_advance {s : State} {q : Refusal} (h : advance s = .refused q) : q = .pcWraps := by
  obtain ⟨-, -, he⟩ | ⟨-, he⟩ := advance_cases s <;> rw [he] at h <;> cases h
  rfl

theorem eq_pcWraps_of_transfer {target : Word} {s : State} {q : Refusal} (h : transfer target s = .refused q) :
    q = .pcWraps := by
  unfold transfer at h
  split at h
  · split at h <;> cases h
    rfl
  · cases h

theorem eq_pcWraps_of_notTaken {s : State} {q : Refusal} (h : notTaken s = .refused q) : q = .pcWraps := by
  unfold notTaken at h
  split at h <;> split at h <;> cases h <;> rfl

/-- Outside a delay slot, a branch not taken falls through. -/
theorem branch_false {offset : Imm} {s : State} (hd : s.delay = none) : branch false offset s = notTaken s :=
  outsideSlot_of_noSlot hd _

/-- Outside a delay slot, a branch taken goes to its target unless that wraps. -/
theorem branch_true {offset : Imm} {s : State} (hd : s.delay = none) :
    branch true offset s = if branchWraps s.pc offset then .refused .pcWraps else transfer (branchTarget s.pc offset) s :=
  outsideSlot_of_noSlot hd _

theorem eq_pcWraps_of_branch {taken : Bool} {offset : Imm} {s : State} {q : Refusal} (hd : s.delay = none)
    (h : branch taken offset s = .refused q) : q = .pcWraps := by
  cases taken with
  | false => exact eq_pcWraps_of_notTaken (branch_false hd ▸ h)
  | true =>
    rw [branch_true hd] at h
    split at h
    · cases h; rfl
    · exact eq_pcWraps_of_transfer h

/-- Settles O49: a control transfer has no other outcome in a delay slot, and no other outcome is that refusal. -/
theorem noControlTransferInDelaySlot : Obligations.NoControlTransferInDelaySlot := by
  intro i s
  cases exec_shape i s with
  | refused q eq notSlot _ noSlot =>
    rw [eq]
    exact ⟨fun h => absurd (Host.Outcome.refused.inj h) notSlot, fun ⟨hc, hd⟩ => absurd (noSlot hc) hd⟩
  | raised e eq _ noSlot =>
    rw [eq]
    exact ⟨fun h => absurd h (raise_ne_refused e s _), fun ⟨hc, hd⟩ => absurd (noSlot hc) hd⟩
  | sequential u _ eq notTransfer =>
    rw [eq, notTransfer]
    exact ⟨fun h => (nomatch eq_pcWraps_of_advance h), nofun⟩
  | inSlot eq isTransfer slot => exact ⟨fun _ => ⟨isTransfer, slot⟩, fun _ => eq⟩
  | returned eq _ noSlot =>
    rw [eq]
    exact ⟨nofun, fun ⟨_, hd⟩ => absurd noSlot hd⟩
  | jumped u target _ eq _ noSlot =>
    rw [eq]
    exact ⟨fun h => (nomatch eq_pcWraps_of_transfer h), fun ⟨_, hd⟩ => absurd noSlot hd⟩
  | branched taken offset eq _ noSlot =>
    rw [eq]
    exact ⟨fun h => (nomatch eq_pcWraps_of_branch noSlot h), fun ⟨_, hd⟩ => absurd noSlot hd⟩

-- Jumps (R197 to R200)

/-- Outside the last word of a region, J and JAL come to the move of pc. -/
theorem if_atRegionEnd_neg {pc : Word} (h : ¬pc.extractLsb' 0 28 = 0xFFFFFFC) (r k : Result) :
    (if atRegionEnd pc then r else k) = k :=
  if_neg (mt atRegionEnd_iff.mp h)

/-- The result of a jump that writes no register. -/
theorem transfer_result {s : State} (target : Word) (hc : CanTransfer s) :
    ∃ t, transfer target s = .next t ∧ KeepsAllBut [] s t ∧ Transfers target s t :=
  have h := transfer_next target hc.2
  ⟨_, h, keepsAllBut_of_transfer h, transfers_of_transfer hc.1 h⟩

/-- The result of a jump that writes x[31]. -/
theorem transfer_link_result {s : State} (target link : Word) (hc : CanTransfer s) :
    ∃ t, transfer target (writeGpr s 31 link) = .next t ∧ (∀ r, readGpr t r = if r = 31 then link else readGpr s r) ∧
      KeepsAllBut [.gprs] s t ∧ Transfers target s t := by
  obtain ⟨hd, hroom⟩ := hc
  obtain ⟨t, h⟩ : ∃ t, transfer target (writeGpr s 31 link) = .next t :=
    ⟨_, transfer_next target (by rwa [writeGpr_params, writeGpr_pc])⟩
  have hframe := keepsAllBut_of_transfer h
  exact ⟨t, h, fun r => (hframe .gprs nofun r).trans (readGpr_writeGpr_of_ne_zero (by decide)),
    (keepsAllBut_writeGpr s 31 link).trans (hframe.weaken nofun),
    WritesOf.transfers (.gpr (i := .nop) s 31 link rfl) hd h⟩

/-- Settles O46: past its refusals, a jump is a transfer, after the write of x[31] where it links. -/
theorem jumpsAndLinks : Obligations.JumpsAndLinks := by
  intro index rs s
  simp only [Completes, exec, execJ, execJal, execJr, execJalr]
  refine ⟨rfl, fun hc hn => ?_, fun hd he => ?_, rfl, fun hc hn => ?_, congrArg some (rWord_join_rt _ _ rs _ _ _), fun hc => ?_,
    congrArg some (rWord_join_rt _ _ rs _ _ _), fun hc hn => ?_, fun hd he => ?_⟩
  · rw [outsideSlot_of_noSlot hc.1, if_atRegionEnd_neg hn]
    exact transfer_result _ hc
  · simp only [outsideSlot_of_noSlot hd, atRegionEnd_iff.mpr he, if_true, and_self]
  · rw [outsideSlot_of_noSlot hc.1, if_atRegionEnd_neg hn]
    exact transfer_link_result _ (linkValue s) hc
  · rw [outsideSlot_of_noSlot hc.1]
    exact transfer_result _ hc
  · rw [outsideSlot_of_noSlot hc.1, if_neg hn]
    exact transfer_link_result _ (linkValue s) hc
  · rw [outsideSlot_of_noSlot hd, if_pos he]

-- Branches (R201 to R207)

/-- The result of a branch that has room, whose condition `taken` decides. -/
theorem branch_result {taken : Bool} {cond : Prop} {offset : Imm} {s : State} (hiff : taken = true ↔ cond)
    (hroom : BranchRoom cond offset s) :
    ∃ t, branch taken offset s = .next t ∧ KeepsAllBut [] s t ∧ (cond → Transfers (takenTarget s offset) s t) ∧
      (¬cond → FallsThrough s t) := by
  obtain ⟨hd, htaken, hnot⟩ := hroom
  cases taken with
  | true =>
    have hcond : cond := hiff.mp rfl
    obtain ⟨htarget, hslot⟩ := htaken hcond
    rw [branch_true hd, if_neg (mt branchWraps_eq_true_iff.mp (not_not_intro htarget))]
    obtain ⟨t, ht, hframe, htransfers⟩ := transfer_result (takenTarget s offset) ⟨hd, hslot⟩
    exact ⟨t, ht, hframe, fun _ => htransfers, fun hn => absurd hcond hn⟩
  | false =>
    have hcond : ¬cond := fun hc => nomatch hiff.mpr hc
    have h := notTaken_next (hnot hcond)
    rw [branch_false hd]
    exact ⟨_, h, keepsAllBut_of_notTaken h, fun hc => absurd hc hcond, fun _ => fallsThrough_of_notTaken hd h⟩

/-- Settles O47: each is a branch on a test of its condition. -/
theorem integerBranches : Obligations.IntegerBranches := fun _ _ _ _ =>
  ⟨rfl, branch_result decide_eq_true_iff, rfl, branch_result decide_eq_true_iff, rfl, branch_result decide_eq_true_iff,
    rfl, branch_result decide_eq_true_iff, rfl, branch_result beq_iff_eq, rfl, branch_result bne_iff_ne⟩

-- Conditional moves (R208, R209)

/-- Settles O38: the condition chooses between the write of RD and none, and both advance. -/
theorem conditionalMoves : Obligations.ConditionalMoves := by
  intro rd rs rt s
  have moved := fun hc => advance_writeGpr_result (s := s) (.inl rfl) hc rd (readGpr s rs)
  have kept := advance_onlyAdvances_of_read (s := s) (.inl rfl)
  simp only [Completes, exec, execMovz, execMovn]
  refine ⟨congrArg some (rWord_join_sa _ _ rs rt rd _), fun hc h => ?_, fun hc h => ?_,
    congrArg some (rWord_join_sa _ _ rs rt rd _), fun hc h => ?_, fun hc h => ?_⟩
  · rw [if_pos h]; exact moved hc
  · rw [if_neg h]; exact kept hc
  · rw [if_pos h]; exact moved hc
  · rw [if_neg (not_not_intro h)]; exact kept hc

end Sys2Proof.Machine
end

section
/-! SUPPORT. The set-on-condition family (spec/46_set_on_condition.md R216 to R219). -/

namespace Sys2Proof.Machine

/-- The sign-extension of an immediate keeps its signed value. -/
theorem toInt_sextImm (imm : Imm) : (sextImm imm).toInt = imm.toInt := BitVec.toInt_signExtend_of_le (by decide)

/-- Settles O37: each writes one general register, and SLTI compares with the signed value of the immediate itself. -/
theorem setOnCondition : Obligations.SetOnCondition := by
  intro rd rs rt imm s
  have result v (hc : CanAdvance s) := advance_writeGpr_result (.inl rfl) hc rd v
  have word (funct : BitVec 6) := congrArg some (rWord_join_sa 0b000000 funct rs rt rd 0b00000)
  refine ⟨word _, result _, word _, result _, rfl, ?_, rfl, result _⟩
  rw [← toInt_sextImm]
  exact result _

end Sys2Proof.Machine
end

section
/-! SUPPORT. The floating-point instructions (spec/47_floating_point.md R225 to R251, R266, R267): each writes one floating-point
register from others by the functions of the record, and a branch tests a condition code. -/

namespace Sys2Proof.Machine

-- Branches (R266, R267)

/-- The word of a floating-point branch with its fixed fields joined. -/
theorem fpBranchWord_eq_joined (cc : Cc) (tf : BitVec 1) (offset : Imm) :
    fpBranchWord cc tf offset = 0b01000101000#11 ++ cc ++ (0b0#1 ++ tf) ++ offset :=
  congrArg (· ++ offset) BitVec.append_assoc

/-- Settles O48: each is a branch on a test of the condition code. -/
theorem floatingPointBranches : Obligations.FloatingPointBranches := fun cc offset _ =>
  ⟨congrArg some (fpBranchWord_eq_joined cc 0b1#1 offset), branch_result Iff.rfl,
    congrArg some (fpBranchWord_eq_joined cc 0b0#1 offset), branch_result (Bool.not_eq_true' _).to_iff⟩

-- Arithmetic (R226 to R240)

/-- Settles O53: each is one write of a floating-point register, of a double-word or of a low half. -/
theorem floatingPointArithmetic : Obligations.FloatingPointArithmetic := fun fd _ _ _ =>
  have low v hc := advance_writeFprLow_result hc fd v
  have whole v hc := advance_writeFpr_result (.inl rfl) hc fd v
  ⟨rfl, whole _, rfl, low _, rfl, whole _, rfl, whole _, rfl, low _, rfl, whole _,
    rfl, whole _, rfl, low _, rfl, whole _, rfl, whole _, rfl, low _, rfl, whole _⟩

theorem fpMaddS_of_fused {fp : FpRecord} (h : fp.fused = true) (r s t : BitVec 32) : fpMaddS fp r s t = fpFmaS fp s t r :=
  if_pos h

theorem fpMaddS_of_not_fused {fp : FpRecord} (h : fp.fused = false) (r s t : BitVec 32) :
    fpMaddS fp r s t = fpAddS fp (fpMulS fp s t) r :=
  if_neg (Bool.not_eq_true _ ▸ h)

theorem fpMaddD_of_fused {fp : FpRecord} (h : fp.fused = true) (r s t : Word) : fpMaddD fp r s t = fpFmaD fp s t r :=
  if_pos h

theorem fpMaddD_of_not_fused {fp : FpRecord} (h : fp.fused = false) (r s t : Word) :
    fpMaddD fp r s t = fpAddD fp (fpMulD fp s t) r :=
  if_neg (Bool.not_eq_true _ ▸ h)

/-- Settles O54: each writes what madd_d or madd_s of R238 and R239 is under the setting of `fused`. -/
theorem floatingPointMultiplyAdd : Obligations.FloatingPointMultiplyAdd := by
  intro fd fr fs ft s
  have low v hc := advance_writeFprLow_result (s := s) hc fd v
  have whole v hc := advance_writeFpr_result (s := s) (.inl rfl) hc fd v
  refine ⟨rfl, fun hc h => ?_, fun hc h => ?_, rfl, fun hc h => ?_, fun hc h => ?_, rfl, fun hc h => ?_, fun hc h => ?_⟩
  · rw [← fpMaddD_of_fused h]; exact whole _ hc
  · rw [← fpMaddD_of_not_fused h]; exact whole _ hc
  · rw [← fpMaddS_of_fused h]; exact low _ hc
  · rw [← fpMaddS_of_not_fused h]; exact low _ hc
  · rw [← fpMaddS_of_fused h, ← fpMaddS_of_fused h]; exact whole _ hc
  · rw [← fpMaddS_of_not_fused h, ← fpMaddS_of_not_fused h]; exact whole _ hc

/-- Settles O55: each is one write of a floating-point register, of the width of the destination format. -/
theorem conversions : Obligations.Conversions := fun fd _ _ =>
  have low v hc := advance_writeFprLow_result hc fd v
  have whole v hc := advance_writeFpr_result (.inl rfl) hc fd v
  ⟨rfl, low _, rfl, low _, rfl, low _, rfl, whole _, rfl, whole _, rfl, whole _, rfl, low _, rfl, low _, rfl, whole _,
    rfl, whole _⟩

end Sys2Proof.Machine
end

section
/-! SUPPORT. The rational numbers that the finite values denote, and the compares on the extended numbers
(spec/47_floating_point.md R223, R253 to R265). -/

namespace Sys2Proof.Machine

-- Finite values as rational numbers (R223)

theorem ratOf_eq_signedMag (neg : Bool) (m : Nat) (e : Int) : ratOf neg m e = (signedMag neg m : ℚ) * (2 : ℚ) ^ e := by
  cases neg <;> simp [ratOf, signedMag]

/-- A power of two as a natural number, for an exponent that is not negative. -/
theorem cast_two_pow_toNat {k : Int} (hk : 0 ≤ k) : ((2 ^ k.toNat : Nat) : ℚ) = (2 : ℚ) ^ k := by
  rw [Nat.cast_pow, Nat.cast_ofNat, ← zpow_natCast, Int.toNat_of_nonneg hk]

/-- A significand in units of a smaller last place is the same number. -/
theorem signedMag_mul_two_zpow (neg : Bool) (m : Nat) {e e' : Int} (h : e' ≤ e) :
    (signedMag neg (m * 2 ^ (e - e').toNat) : ℚ) * (2 : ℚ) ^ e' = ratOf neg m e := by
  have hpow : (2 : ℚ) ^ (e - e') * (2 : ℚ) ^ e' = (2 : ℚ) ^ e := by rw [← zpow_add₀ two_ne_zero, sub_add_cancel]
  rw [← ratOf_eq_signedMag, ratOf, ratOf, Nat.cast_mul, cast_two_pow_toNat (sub_nonneg.mpr h), ← hpow]
  ring

-- Comparing (R253)

/-- On a common scale two finite numbers compare as their significands do. -/
theorem onCommonScale_spec (n1 : Bool) (m1 : Nat) (e1 : Int) (n2 : Bool) (m2 : Nat) (e2 : Int) :
    (((onCommonScale n1 m1 e1 n2 m2 e2).1 : ℚ) * (2 : ℚ) ^ min e1 e2 = ratOf n1 m1 e1) ∧
    (((onCommonScale n1 m1 e1 n2 m2 e2).2 : ℚ) * (2 : ℚ) ^ min e1 e2 = ratOf n2 m2 e2) :=
  ⟨signedMag_mul_two_zpow n1 m1 (min_le_left e1 e2), signedMag_mul_two_zpow n2 m2 (min_le_right e1 e2)⟩

theorem fpLt_fin_iff (n1 : Bool) (m1 : Nat) (e1 : Int) (n2 : Bool) (m2 : Nat) (e2 : Int) :
    fpLt (.fin n1 m1 e1) (.fin n2 m2 e2) = true ↔ ratOf n1 m1 e1 < ratOf n2 m2 e2 := by
  obtain ⟨h1, h2⟩ := onCommonScale_spec n1 m1 e1 n2 m2 e2
  rw [← h1, ← h2, mul_lt_mul_iff_left₀ (by positivity), Int.cast_lt]
  exact decide_eq_true_iff

theorem fpEq_fin_iff (n1 : Bool) (m1 : Nat) (e1 : Int) (n2 : Bool) (m2 : Nat) (e2 : Int) :
    fpEq (.fin n1 m1 e1) (.fin n2 m2 e2) = true ↔ ratOf n1 m1 e1 = ratOf n2 m2 e2 := by
  obtain ⟨h1, h2⟩ := onCommonScale_spec n1 m1 e1 n2 m2 e2
  rw [← h1, ← h2, mul_left_inj' (by positivity), Int.cast_inj]
  exact beq_iff_eq

/-- Two values are numbers of which the relation holds; `Ordered` says it of two patterns. -/
def Related (rel : WithBot (WithTop ℚ) → WithBot (WithTop ℚ) → Prop) (u v : FpVal) : Prop :=
  ∃ x y, extended u = some x ∧ extended v = some y ∧ rel x y

theorem fpLt_iff (u v : FpVal) : fpLt u v = true ↔ Related (· < ·) u v := by
  cases u with
  | nan => simp [fpLt, Related, extended]
  | inf a => cases v with
    | nan => simp [fpLt, Related, extended]
    | inf b => cases a <;> cases b <;> simp [fpLt, Related, extended]
    | fin => cases a <;> simp [fpLt, Related, extended]
  | fin => cases v with
    | nan => simp [fpLt, Related, extended]
    | inf b => cases b <;> simp [fpLt, Related, extended, -WithBot.coe_top]
    | fin => simp [fpLt_fin_iff, Related, extended]

theorem fpEq_iff (u v : FpVal) : fpEq u v = true ↔ Related (· = ·) u v := by
  cases u with
  | nan => simp [fpEq, Related, extended]
  | inf a => cases v with
    | nan => simp [fpEq, Related, extended]
    | inf b => cases a <;> cases b <;> simp [fpEq, Related, extended]
    | fin => cases a <;> simp [fpEq, Related, extended]
  | fin => cases v with
    | nan => simp [fpEq, Related, extended]
    | inf b => cases b <;> simp [fpEq, Related, extended]
    | fin => simp [fpEq_fin_iff, Related, extended]

theorem fpLe_iff (u v : FpVal) : fpLe u v = true ↔ Related (· ≤ ·) u v := by
  rw [fpLe, Bool.or_eq_true, fpLt_iff, fpEq_iff]
  simp only [Related, le_iff_lt_or_eq, and_or_left, exists_or]

/-- GT and GE are LT and LE with the sources exchanged (R256, R257). -/
theorem Related.swap_iff {rel : WithBot (WithTop ℚ) → WithBot (WithTop ℚ) → Prop} {u v : FpVal} :
    Related rel u v ↔ Related (fun x y => rel y x) v u :=
  ⟨fun ⟨x, y, hx, hy, h⟩ => ⟨y, x, hy, hx, h⟩, fun ⟨x, y, hx, hy, h⟩ => ⟨y, x, hy, hx, h⟩⟩

theorem bnot_eq_true_iff_not {b : Bool} {P : Prop} (h : b = true ↔ P) : (!b) = true ↔ ¬P := by
  rw [← h, Bool.not_eq_true', Bool.not_eq_true]

/-- A compare, by what the value it writes says. -/
theorem compare_result {i : Instr} {s : State} {cc : Cc} {b : Bool} {P : Prop} (hexec : exec i s = advance (writeFcc s cc b))
    (h : b = true ↔ P) (hc : CanAdvance s) : ∃ v, Completes i s (FccResult cc v s) ∧ (v = true ↔ P) :=
  ⟨b, by rw [Completes, hexec]; exact advance_writeFcc_result hc cc b, h⟩

/-- Settles O56: each writes the relation of R253 on the two values. -/
theorem comparesByTheExtendedNumbers : Obligations.ComparesByTheExtendedNumbers := fun cc fs ft _ =>
  have single (cond : BitVec 4) (ft fs : FReg) := congrArg some (compareWord_eq_joined 0b10000 ft fs cc cond)
  have double (cond : BitVec 4) (ft fs : FReg) := congrArg some (compareWord_eq_joined 0b10001 ft fs cc cond)
  ⟨single 0b1100 ft fs, compare_result rfl (fpLt_iff _ _),
    single 0b1110 ft fs, compare_result rfl (fpLe_iff _ _),
    single 0b1100 fs ft, compare_result rfl ((fpLt_iff _ _).trans Related.swap_iff),
    single 0b1110 fs ft, compare_result rfl ((fpLe_iff _ _).trans Related.swap_iff),
    single 0b0010 ft fs, compare_result rfl (fpEq_iff _ _),
    rfl, compare_result rfl (bnot_eq_true_iff_not (fpEq_iff _ _)),
    double 0b1100 ft fs, compare_result rfl (fpLt_iff _ _),
    double 0b1110 ft fs, compare_result rfl (fpLe_iff _ _),
    double 0b1100 fs ft, compare_result rfl ((fpLt_iff _ _).trans Related.swap_iff),
    double 0b1110 fs ft, compare_result rfl ((fpLe_iff _ _).trans Related.swap_iff),
    double 0b0010 ft fs, compare_result rfl (fpEq_iff _ _),
    rfl, compare_result rfl (bnot_eq_true_iff_not (fpEq_iff _ _))⟩

end Sys2Proof.Machine
end

section
/-! SUPPORT. The bit patterns of a format (spec/47_floating_point.md R223): a pattern is a sign and a magnitude, and the
magnitudes count the numbers of the format upward from 0 to the infinity, with the NaNs above it. -/

namespace Sys2Proof.Machine

/-- The two formats have an exponent and a fraction field wide enough for the facts below. -/
def Format.Wide (f : Format) : Prop := 2 ≤ f.expBits ∧ 1 ≤ f.fracBits

theorem single_wide : single.Wide := ⟨by decide, by decide⟩

theorem double_wide : double.Wide := ⟨by decide, by decide⟩

-- Sign and magnitude

/-- The sign bit of a pattern. -/
def signOf (f : Format) (b : Nat) : Bool := b / 2 ^ (f.expBits + f.fracBits) % 2 == 1

/-- The exponent and fraction fields of a pattern, as one number. -/
def magOf (f : Format) (b : Nat) : Nat := b % 2 ^ (f.expBits + f.fracBits)

theorem magOf_lt (f : Format) (b : Nat) : magOf f b < 2 ^ (f.expBits + f.fracBits) := Nat.mod_lt _ (by positivity)

theorem infBits_add (f : Format) : infBits f + 2 ^ f.fracBits = 2 ^ (f.expBits + f.fracBits) := by
  rw [infBits, ← Nat.succ_mul, Nat.succ_eq_add_one, Nat.sub_add_cancel Nat.one_le_two_pow, Nat.pow_add]

theorem infBits_lt (f : Format) : infBits f < 2 ^ (f.expBits + f.fracBits) := by
  have hadd := infBits_add f
  have hpos : 0 < 2 ^ f.fracBits := by positivity
  omega

theorem two_pow_fracBits_le_infBits {f : Format} (hf : f.Wide) : 2 ^ f.fracBits ≤ infBits f :=
  Nat.le_mul_of_pos_left _ (Nat.sub_pos_of_lt (Nat.one_lt_two_pow (by have := hf.1; omega)))

theorem infBits_pos {f : Format} (hf : f.Wide) : 0 < infBits f :=
  (Nat.two_pow_pos _).trans_le (two_pow_fracBits_le_infBits hf)

theorem signOf_withSign {f : Format} {mag : Nat} (neg : Bool) (h : mag < 2 ^ (f.expBits + f.fracBits)) :
    signOf f (withSign f neg mag) = neg := by
  cases neg with
  | false => simp [signOf, withSign, Nat.div_eq_of_lt h]
  | true => simp [signOf, withSign, Nat.add_div_left _ (Nat.two_pow_pos _), Nat.div_eq_of_lt h]

theorem magOf_withSign {f : Format} {mag : Nat} (neg : Bool) (h : mag < 2 ^ (f.expBits + f.fracBits)) :
    magOf f (withSign f neg mag) = mag := by
  cases neg <;> simp [magOf, withSign, Nat.mod_eq_of_lt h]

/-- A pattern with its sign bit fits the width of the format. -/
theorem withSign_lt {f : Format} {mag : Nat} (neg : Bool) (h : mag < 2 ^ (f.expBits + f.fracBits)) :
    withSign f neg mag < 2 ^ (f.expBits + f.fracBits + 1) := by
  cases neg <;> simp only [withSign, Nat.pow_succ] <;> grind

/-- The pattern and the magnitude have the same last bit. -/
theorem withSign_mod_two {f : Format} (hf : f.Wide) (neg : Bool) (mag : Nat) : withSign f neg mag % 2 = mag % 2 := by
  have heven : 2 ^ (f.expBits + f.fracBits) % 2 = 0 := Nat.mod_eq_zero_of_dvd (dvd_pow_self 2 (by have := hf.1; omega))
  cases neg <;> simp only [withSign] <;> grind

-- The number of a magnitude

/-- The significand of a finite magnitude, with the leading bit of a normal number. -/
def significand (f : Format) (mag : Nat) : Nat :=
  if mag / 2 ^ f.fracBits = 0 then mag % 2 ^ f.fracBits else 2 ^ f.fracBits + mag % 2 ^ f.fracBits

/-- The exponent of the last place of a finite magnitude. -/
def lastPlace (f : Format) (mag : Nat) : Int := minExp f - f.fracBits + (mag / 2 ^ f.fracBits - 1 : Nat)

theorem expField_eq (f : Format) (b : Nat) : b / 2 ^ f.fracBits % 2 ^ f.expBits = magOf f b / 2 ^ f.fracBits := by
  rw [magOf, Nat.add_comm, Nat.pow_add, Nat.mod_mul_right_div_self]

theorem fracField_eq (f : Format) (b : Nat) : b % 2 ^ f.fracBits = magOf f b % 2 ^ f.fracBits :=
  (Nat.mod_mod_of_dvd b (Nat.pow_dvd_pow 2 (Nat.le_add_left _ _))).symm

/-- The exponent field is all ones from the magnitude of the infinity upward. -/
theorem expField_eq_max_iff {f : Format} {mag : Nat} (h : mag < 2 ^ (f.expBits + f.fracBits)) :
    mag / 2 ^ f.fracBits = 2 ^ f.expBits - 1 ↔ infBits f ≤ mag := by
  have hlt : mag / 2 ^ f.fracBits < 2 ^ f.expBits := Nat.div_lt_of_lt_mul (by rwa [← Nat.pow_add, Nat.add_comm])
  rw [infBits, ← Nat.le_div_iff_mul_le (by positivity)]
  omega

theorem unpack_of_finite {f : Format} {b : Nat} (h : magOf f b < infBits f) :
    unpack f b = .fin (signOf f b) (significand f (magOf f b)) (lastPlace f (magOf f b)) := by
  have hexp : magOf f b / 2 ^ f.fracBits ≠ 2 ^ f.expBits - 1 :=
    fun he => Nat.not_le.mpr h ((expField_eq_max_iff (magOf_lt f b)).mp he)
  rw [unpack, expField_eq, fracField_eq, significand, lastPlace]
  simp only [if_neg hexp]
  split
  case isTrue hz => simp [hz, signOf]
  case isFalse => rfl

theorem unpack_of_infinite {f : Format} {b : Nat} (h : infBits f ≤ magOf f b) :
    unpack f b = if magOf f b = infBits f then .inf (signOf f b) else .nan := by
  have hexp := (expField_eq_max_iff (magOf_lt f b)).mpr h
  have hdiv := Nat.div_add_mod' (magOf f b) (2 ^ f.fracBits)
  have hfrac : magOf f b % 2 ^ f.fracBits = 0 ↔ magOf f b = infBits f := by
    rw [hexp, ← infBits] at hdiv
    omega
  rw [unpack, expField_eq, fracField_eq]
  simp only [if_pos hexp, hfrac]
  rfl

theorem isNan_iff {f : Format} {b : Nat} : isNan f b ↔ infBits f < magOf f b := by
  rw [isNan]
  rcases Nat.lt_trichotomy (magOf f b) (infBits f) with h | h | h
  · simp [unpack_of_finite h, Nat.lt_asymm h]
  · simp [unpack_of_infinite h.ge, h]
  · simp [unpack_of_infinite h.le, h, h.ne']

theorem isInf_iff {f : Format} {neg : Bool} {b : Nat} : isInf f neg b ↔ magOf f b = infBits f ∧ signOf f b = neg := by
  rw [isInf]
  rcases Nat.lt_or_ge (magOf f b) (infBits f) with h | h
  · simp [unpack_of_finite h, h.ne]
  · rw [unpack_of_infinite h]
    split <;> simp [*]

theorem significand_eq_zero_iff {f : Format} {mag : Nat} : significand f mag = 0 ↔ mag = 0 := by
  have hdiv := Nat.div_add_mod mag (2 ^ f.fracBits)
  have hpos : 0 < 2 ^ f.fracBits := by positivity
  rw [significand]
  split
  case isTrue hz => rw [hz] at hdiv; omega
  case isFalse hz =>
    have hne : mag ≠ 0 := fun h => hz (by rw [h, Nat.zero_div])
    omega

theorem isZero_iff {f : Format} (hf : f.Wide) {neg : Bool} {b : Nat} :
    isZero f neg b ↔ magOf f b = 0 ∧ signOf f b = neg := by
  rw [isZero]
  rcases Nat.lt_or_ge (magOf f b) (infBits f) with h | h
  · simp [unpack_of_finite h, significand_eq_zero_iff, and_comm]
  · have hpos := infBits_pos hf
    rw [unpack_of_infinite h]
    split <;> simp <;> omega

-- The order of the magnitudes

/-- The number of a magnitude; above the largest finite one, of a format with a wider exponent field. -/
def magRat (f : Format) (mag : Nat) : ℚ := (significand f mag : ℚ) * (2 : ℚ) ^ lastPlace f mag

/-- 1 or -1. -/
def signUnit (neg : Bool) : ℚ := if neg then -1 else 1

theorem ratOf_eq_signUnit (neg : Bool) (m : Nat) (e : Int) : ratOf neg m e = signUnit neg * (m * (2 : ℚ) ^ e) := mul_assoc _ _ _

theorem finiteValue_eq_some_iff {f : Format} {b : Nat} {x : ℚ} :
    finiteValue f b = some x ↔ magOf f b < infBits f ∧ x = signUnit (signOf f b) * magRat f (magOf f b) := by
  rw [finiteValue]
  rcases Nat.lt_or_ge (magOf f b) (infBits f) with h | h
  · simp [unpack_of_finite h, h, ratOf_eq_signUnit, magRat, eq_comm]
  · rcases h.eq_or_lt with he | hlt
    · simp [unpack_of_infinite h, ← he]
    · simp [unpack_of_infinite h, hlt.ne', Nat.lt_asymm hlt]

/-- A significand at the k-th last place, with its carry: q * 2^(lowest place + k) is the number of the magnitude k * 2^p + q. -/
theorem magRat_place {f : Format} {k q : Nat} (hcarry : q ≤ 2 ^ (f.fracBits + 1)) (hnormal : k = 0 ∨ 2 ^ f.fracBits ≤ q) :
    magRat f (k * 2 ^ f.fracBits + q) = q * (2 : ℚ) ^ (minExp f - f.fracBits + k) := by
  have hpos : 0 < 2 ^ f.fracBits := by positivity
  have hexp : (k * 2 ^ f.fracBits + q) / 2 ^ f.fracBits = k + q / 2 ^ f.fracBits := by
    rw [Nat.mul_comm, Nat.mul_add_div hpos]
  have hfrac : (k * 2 ^ f.fracBits + q) % 2 ^ f.fracBits = q % 2 ^ f.fracBits := Nat.mul_add_mod_self_right _ _ _
  rw [pow_succ] at hcarry
  rw [magRat, significand, lastPlace, hexp, hfrac]
  rcases Nat.lt_or_ge q (2 ^ f.fracBits) with hq | hq
  · obtain rfl : k = 0 := hnormal.resolve_right (Nat.not_le.mpr hq)
    simp [Nat.div_eq_of_lt hq, Nat.mod_eq_of_lt hq]
  · rcases Nat.lt_or_ge q (2 ^ f.fracBits * 2) with hq2 | hq2
    · have hdiv : q / 2 ^ f.fracBits = 1 := Nat.div_eq_of_lt_le (by omega) (by omega)
      have hmod : 2 ^ f.fracBits + q % 2 ^ f.fracBits = q := by
        rw [Nat.mod_eq_sub_mul_div, hdiv]; omega
      simp [hdiv, hmod]
    · obtain rfl : q = 2 ^ f.fracBits * 2 := Nat.le_antisymm hcarry hq2
      have hsucc : minExp f - f.fracBits + ((k + 2 - 1 : Nat) : Int) = minExp f - f.fracBits + k + 1 := by
        rw [show k + 2 - 1 = k + 1 from rfl]; push_cast; ring
      rw [Nat.mul_div_cancel_left _ hpos, Nat.mul_mod_right, if_neg (by omega), hsucc, zpow_add_one₀ two_ne_zero]
      push_cast
      ring

/-- The next magnitude is one last place further. -/
theorem magRat_lt_succ (f : Format) (mag : Nat) : magRat f mag < magRat f (mag + 1) := by
  obtain ⟨k, q, rfl, hq, hn⟩ :
      ∃ k q, mag = k * 2 ^ f.fracBits + q ∧ q < 2 ^ (f.fracBits + 1) ∧ (k = 0 ∨ 2 ^ f.fracBits ≤ q) := by
    have hdiv := Nat.div_add_mod' mag (2 ^ f.fracBits)
    have hmod : mag % 2 ^ f.fracBits < 2 ^ f.fracBits := Nat.mod_lt _ (by positivity)
    rw [pow_succ]
    cases hk : mag / 2 ^ f.fracBits with
    | zero => exact ⟨0, mag, by omega, by rw [hk] at hdiv; omega, .inl rfl⟩
    | succ k =>
      rw [hk, Nat.succ_mul] at hdiv
      exact ⟨k, 2 ^ f.fracBits + mag % 2 ^ f.fracBits, by omega, by omega, .inr (by omega)⟩
  rw [Nat.add_assoc, magRat_place hq.le hn, magRat_place hq (hn.imp_right Nat.le_succ_of_le)]
  exact mul_lt_mul_of_pos_right (by push_cast; linarith) (by positivity)

theorem magRat_strictMono (f : Format) : StrictMono (magRat f) := strictMono_nat_of_lt_succ (magRat_lt_succ f)

@[simp] theorem magRat_zero (f : Format) : magRat f 0 = 0 := by simp [magRat, significand]

theorem magRat_nonneg (f : Format) (mag : Nat) : 0 ≤ magRat f mag := by unfold magRat; positivity

end Sys2Proof.Machine
end

section
/-! SUPPORT. The rounding of the default record (spec/47_floating_point.md R222, R223): a positive number lies between two
neighbours, integers or magnitudes of a format, and the mode chooses one of them. -/

namespace Sys2Proof.Machine

-- The choice between two neighbours

/-- What a rounding mode does to the magnitude of a number whose sign is known. -/
inductive Direction where
  | nearest
  | down
  | up

def directionOf : RoundMode → Bool → Direction
  | .nearestEven, _ => .nearest
  | .towardZero, _ => .down
  | .towardPlusInf, neg => if neg then .down else .up
  | .towardMinusInf, neg => if neg then .up else .down

/-- `a` lies between its neighbours `low` and `high`, which have the indices `lo` and `lo + 1`, and `m` is the index of the one
that the direction chooses. -/
structure Rounded (dir : Direction) (lo : Nat) (low high a : ℚ) (m : Nat) : Prop where
  low_le : low ≤ a
  lt_high : a < high
  choice : match dir with
    | .down => m = lo
    | .up => (m = lo ∧ a = low) ∨ (m = lo + 1 ∧ low < a)
    | .nearest => (m = lo ∧ (a - low < high - a ∨ (a - low = high - a ∧ lo % 2 = 0))) ∨
        (m = lo + 1 ∧ (high - a < a - low ∨ (a - low = high - a ∧ lo % 2 = 1)))

/-- The choice stays the same on another scale, and with an even number added to the indices. -/
theorem Rounded.scale {dir : Direction} {lo m : Nat} {low high a s : ℚ} (h : Rounded dir lo low high a m) (hs : 0 < s) {k : Nat}
    (hk : k % 2 = 0) : Rounded dir (k + lo) (low * s) (high * s) (a * s) (k + m) := by
  obtain ⟨hlow, hhigh, hchoice⟩ := h
  refine ⟨mul_le_mul_of_nonneg_right hlow hs.le, mul_lt_mul_of_pos_right hhigh hs, ?_⟩
  have hpar : (k + lo) % 2 = lo % 2 := by omega
  cases dir with
  | down => exact congrArg (k + ·) hchoice
  | up =>
    exact hchoice.imp (fun ⟨hm, ha⟩ => ⟨by rw [hm], by rw [ha]⟩)
      (fun ⟨hm, ha⟩ => ⟨by rw [hm, Nat.add_assoc], mul_lt_mul_of_pos_right ha hs⟩)
  | nearest =>
    simp only [← sub_mul, mul_lt_mul_iff_left₀ hs, mul_left_inj' hs.ne', hpar, Nat.add_assoc, Nat.add_left_cancel_iff]
    exact hchoice

-- The rounding of a quotient to an integer

/-- A number between two integers, by the integer below it and the remainder. -/
theorem natCast_div_eq (n d : Nat) (hd : 0 < d) : (n : ℚ) / d = (n / d : Nat) + (n % d : Nat) / (d : ℚ) := by
  have hd' : (d : ℚ) ≠ 0 := by positivity
  rw [div_eq_iff hd', add_mul, div_mul_cancel₀ _ hd']
  exact_mod_cast (Nat.div_add_mod' n d).symm

theorem natCast_div_sub (n : Nat) {d : Nat} (hd : 0 < d) : (n : ℚ) / d - (n / d : Nat) = (n % d : Nat) / (d : ℚ) := by
  rw [natCast_div_eq n d hd, add_sub_cancel_left]

theorem succ_sub_natCast_div (n : Nat) {d : Nat} (hd : 0 < d) :
    ((n / d : Nat) + 1 : ℚ) - n / d = (d - (n % d : Nat)) / (d : ℚ) := by
  rw [natCast_div_eq n d hd, sub_div, div_self (by positivity)]
  ring

/-- Rounding away from 0 takes the next integer where there is a remainder. -/
theorem roundUp_choice (n : Nat) {d : Nat} (hd : 0 < d) {m : Nat} (hm : m = if n % d ≠ 0 then n / d + 1 else n / d) :
    (m = n / d ∧ (n : ℚ) / d = (n / d : Nat)) ∨ (m = n / d + 1 ∧ ((n / d : Nat) : ℚ) < n / d) := by
  have hbelow := natCast_div_sub n hd
  split at hm
  case isTrue hne =>
    refine .inr ⟨hm, sub_pos.mp ?_⟩
    rw [hbelow]
    exact div_pos (by exact_mod_cast Nat.pos_of_ne_zero hne) (by positivity)
  case isFalse he =>
    refine .inl ⟨hm, sub_eq_zero.mp ?_⟩
    rw [hbelow, not_not.mp he, Nat.cast_zero, zero_div]

/-- Rounding to nearest compares twice the remainder with the divisor. -/
theorem roundNearest_choice (n : Nat) {d : Nat} (hd : 0 < d) {m : Nat}
    (hm : m = if 2 * (n % d) > d ∨ (2 * (n % d) = d ∧ n / d % 2 = 1) then n / d + 1 else n / d) {below above : ℚ}
    (hbelow : below = (n % d : Nat) / (d : ℚ)) (habove : above = (d - (n % d : Nat)) / (d : ℚ)) :
    (m = n / d ∧ (below < above ∨ (below = above ∧ n / d % 2 = 0))) ∨
      (m = n / d + 1 ∧ (above < below ∨ (below = above ∧ n / d % 2 = 1))) := by
  have hd' : (0 : ℚ) < d := by positivity
  have hlt : ((n % d : Nat) : ℚ) < d - (n % d : Nat) ↔ 2 * (n % d) < d := by
    rw [lt_sub_iff_add_lt, ← two_mul]; exact_mod_cast Iff.rfl
  have hgt : d - ((n % d : Nat) : ℚ) < (n % d : Nat) ↔ d < 2 * (n % d) := by
    rw [sub_lt_iff_lt_add, ← two_mul]; exact_mod_cast Iff.rfl
  have heq : ((n % d : Nat) : ℚ) = d - (n % d : Nat) ↔ 2 * (n % d) = d := by
    rw [eq_sub_iff_add_eq, ← two_mul]; exact_mod_cast Iff.rfl
  simp only [hbelow, habove, div_lt_div_iff_of_pos_right hd', div_left_inj' hd'.ne', hlt, hgt, heq]
  generalize n / d = q, n % d = r at hm ⊢
  split at hm
  case isTrue h => exact .inr ⟨hm, h⟩
  case isFalse h => exact .inl ⟨hm, by omega⟩

theorem roundQuotient_rounded {d : Nat} (hd : 0 < d) (rm : RoundMode) (neg : Bool) (n : Nat) :
    Rounded (directionOf rm neg) (n / d) (n / d : Nat) ((n / d : Nat) + 1) ((n : ℚ) / d) (roundQuotient rm neg n d) := by
  have hbelow := natCast_div_sub n hd
  have habove := succ_sub_natCast_div n hd
  have hr : ((n % d : Nat) : ℚ) < d := by exact_mod_cast Nat.mod_lt n hd
  refine ⟨sub_nonneg.mp ?_, sub_pos.mp ?_, ?_⟩
  · rw [hbelow]; positivity
  · rw [habove]; exact div_pos (sub_pos.mpr hr) (by positivity)
  · cases rm with
    | nearestEven => exact roundNearest_choice n hd (by simp [roundQuotient]) hbelow habove
    | towardZero => rfl
    | towardPlusInf => cases neg with
      | true => simp [directionOf, roundQuotient]
      | false => exact roundUp_choice n hd (by simp [roundQuotient])
    | towardMinusInf => cases neg with
      | true => exact roundUp_choice n hd (by simp [roundQuotient])
      | false => simp [directionOf, roundQuotient]

-- The magnitude that the exact number is rounded to

/-- A power of two with an integer exponent, as `roundTo` and `floorLog2` write it. -/
theorem two_zpow_eq_div (k : Int) : (2 : ℚ) ^ k = ((2 ^ k.toNat : Nat) : ℚ) / ((2 ^ (-k).toNat : Nat) : ℚ) := by
  push_cast
  rw [← zpow_natCast, ← zpow_natCast, ← zpow_sub₀ two_ne_zero, Int.toNat_sub_toNat_neg]

theorem floorLog2_spec {n d : Nat} (hn : 0 < n) (hd : 0 < d) :
    (2 : ℚ) ^ floorLog2 n d ≤ (n : ℚ) / d ∧ (n : ℚ) / d < (2 : ℚ) ^ (floorLog2 n d + 1) := by
  have hd' : (0 : ℚ) < d := by positivity
  have hn1 : ((2 : ℚ) ^ (Nat.log2 n : Int)) ≤ n := by exact_mod_cast Nat.log2_self_le hn.ne'
  have hn2 : (n : ℚ) < (2 : ℚ) ^ ((Nat.log2 n : Int) + 1) := by exact_mod_cast Nat.lt_log2_self
  have hd1 : ((2 : ℚ) ^ (Nat.log2 d : Int)) ≤ d := by exact_mod_cast Nat.log2_self_le hd.ne'
  have hd2 : (d : ℚ) < (2 : ℚ) ^ ((Nat.log2 d : Int) + 1) := by exact_mod_cast Nat.lt_log2_self
  have htest (k : Int) : d * 2 ^ k.toNat ≤ n * 2 ^ (-k).toNat ↔ (2 : ℚ) ^ k ≤ (n : ℚ) / d := by
    rw [two_zpow_eq_div, div_le_div_iff₀ (by positivity) hd', mul_comm ((2 ^ k.toNat : Nat) : ℚ)]
    exact_mod_cast Iff.rfl
  have hlow : (2 : ℚ) ^ ((Nat.log2 n : Int) - Nat.log2 d - 1) ≤ (n : ℚ) / d := by
    rw [le_div_iff₀ hd', sub_sub, zpow_sub₀ two_ne_zero, div_mul_eq_mul_div, div_le_iff₀ (by positivity)]
    exact mul_le_mul hn1 hd2.le hd'.le (by positivity)
  have hhigh : (n : ℚ) / d < (2 : ℚ) ^ ((Nat.log2 n : Int) - Nat.log2 d + 1) := by
    rw [div_lt_iff₀ hd', sub_add_eq_add_sub, zpow_sub₀ two_ne_zero, div_mul_eq_mul_div, lt_div_iff₀ (by positivity)]
    exact mul_lt_mul hn2 hd1 (by positivity) (by positivity)
  rw [floorLog2]
  split
  case isTrue h => exact ⟨(htest _).mp h, hhigh⟩
  case isFalse h => exact ⟨hlow, by rw [sub_add_cancel]; exact not_le.mp (mt (htest _).mpr h)⟩

/-- The exponent of the leading place of a result (`top` of `roundTo`). -/
def topPlace (f : Format) (n d : Nat) (e : Int) : Int := max (floorLog2 n d + e) (minExp f)

/-- The magnitude `roundTo` comes to before it looks at overflow and flush. -/
def roundedMag (rm : RoundMode) (f : Format) (neg : Bool) (n d : Nat) (e : Int) : Nat :=
  (topPlace f n d e - minExp f).toNat * 2 ^ f.fracBits +
    roundQuotient rm neg (n * 2 ^ (e - (topPlace f n d e - f.fracBits)).toNat) (d * 2 ^ (topPlace f n d e - f.fracBits - e).toNat)

/-- The magnitude after overflow. -/
def clampMag (rm : RoundMode) (f : Format) (neg : Bool) (mag : Nat) : Nat :=
  if infBits f ≤ mag then overflowBits f rm neg else mag

/-- The magnitude after flush (R222). -/
def flushMag (flush : Bool) (f : Format) (mag : Nat) : Nat := if flush && mag < 2 ^ f.fracBits then 0 else mag

theorem roundTo_eq (fp : FpRecord) (f : Format) (neg : Bool) (n d : Nat) (e : Int) :
    roundTo fp f neg n d e = withSign f neg (flushMag fp.flush f (clampMag fp.rm f neg (roundedMag fp.rm f neg n d e))) := rfl

/-- The leading place bounds the number, and is its own unless the number lies below the normal ones. -/
theorem topPlace_spec (f : Format) {n d : Nat} (hn : 0 < n) (hd : 0 < d) (e : Int) :
    (n : ℚ) / d * (2 : ℚ) ^ e < (2 : ℚ) ^ (topPlace f n d e + 1) ∧
    (topPlace f n d e = minExp f ∨ (2 : ℚ) ^ topPlace f n d e ≤ (n : ℚ) / d * (2 : ℚ) ^ e) := by
  obtain ⟨hfloor, hceil⟩ := floorLog2_spec hn hd
  constructor
  · have hle : floorLog2 n d + 1 + e ≤ topPlace f n d e + 1 := by
      have := le_max_left (floorLog2 n d + e) (minExp f)
      rw [topPlace]; omega
    calc (n : ℚ) / d * (2 : ℚ) ^ e < (2 : ℚ) ^ (floorLog2 n d + 1) * (2 : ℚ) ^ e :=
          mul_lt_mul_of_pos_right hceil (by positivity)
      _ = (2 : ℚ) ^ (floorLog2 n d + 1 + e) := (zpow_add₀ two_ne_zero _ _).symm
      _ ≤ (2 : ℚ) ^ (topPlace f n d e + 1) := zpow_le_zpow_right₀ one_le_two hle
  · refine (max_choice (floorLog2 n d + e) (minExp f)).symm.imp_right fun h => ?_
    rw [topPlace, h, zpow_add₀ two_ne_zero]
    exact mul_le_mul_of_nonneg_right hfloor (by positivity)

/-- The quotient that `roundTo` rounds is the exact number in units of its last place. -/
theorem scaledQuotient_eq (n d : Nat) (e ulp : Int) :
    ((n * 2 ^ (e - ulp).toNat : Nat) : ℚ) / (d * 2 ^ (ulp - e).toNat : Nat) =
      (n : ℚ) / d * (2 : ℚ) ^ e / (2 : ℚ) ^ ulp := by
  rw [mul_div_assoc, ← zpow_sub₀ two_ne_zero, two_zpow_eq_div, neg_sub, Nat.cast_mul, Nat.cast_mul, mul_div_mul_comm]

/-- The exact number lies between two magnitudes, and the one of them that the mode chooses is `roundedMag`. -/
theorem roundedMag_rounded {f : Format} (hf : f.Wide) (rm : RoundMode) (neg : Bool) {n d : Nat} (hn : 0 < n) (hd : 0 < d)
    (e : Int) : ∃ lo, Rounded (directionOf rm neg) lo (magRat f lo) (magRat f (lo + 1)) ((n : ℚ) / d * (2 : ℚ) ^ e)
      (roundedMag rm f neg n d e) := by
  obtain ⟨hbelow, habove⟩ := topPlace_spec f hn hd e
  have hmin : minExp f ≤ topPlace f n d e := le_max_right _ _
  rw [roundedMag]
  generalize topPlace f n d e = top at hbelow habove hmin
  have hscaled := scaledQuotient_eq n d e (top - f.fracBits)
  have hround := roundQuotient_rounded (Nat.mul_pos hd (Nat.two_pow_pos (top - f.fracBits - e).toNat)) rm neg
    (n * 2 ^ (e - (top - f.fracBits)).toNat)
  rw [hscaled] at hround
  generalize n * 2 ^ (e - (top - f.fracBits)).toNat = N, d * 2 ^ (top - f.fracBits - e).toNat = D at hround
  generalize (n : ℚ) / d * (2 : ℚ) ^ e = a at hround hbelow habove
  have hulp : (0 : ℚ) < (2 : ℚ) ^ (top - f.fracBits) := by positivity
  have hcarry : N / D < 2 ^ (f.fracBits + 1) := by
    have hlt : a / (2 : ℚ) ^ (top - f.fracBits) < (2 : ℚ) ^ (f.fracBits + 1) := by
      have hexp : ((f.fracBits + 1 : Nat) : Int) + (top - f.fracBits) = top + 1 := by omega
      rw [div_lt_iff₀ hulp, ← zpow_natCast, ← zpow_add₀ two_ne_zero, hexp]
      exact hbelow
    exact_mod_cast hround.low_le.trans_lt hlt
  have hk : ((top - minExp f).toNat : Int) = top - minExp f := Int.toNat_of_nonneg (sub_nonneg.mpr hmin)
  have hnormal : (top - minExp f).toNat = 0 ∨ 2 ^ f.fracBits ≤ N / D := by
    refine habove.imp (fun h => by omega) fun h => Nat.lt_succ_iff.mp ?_
    have hle : (2 : ℚ) ^ f.fracBits ≤ a / (2 : ℚ) ^ (top - f.fracBits) := by
      rw [le_div_iff₀ hulp, ← zpow_natCast, ← zpow_add₀ two_ne_zero, add_sub_cancel]
      exact h
    exact_mod_cast hle.trans_lt hround.lt_high
  have hplace : minExp f - f.fracBits + (top - minExp f).toNat = top - f.fracBits := by omega
  have heven : (top - minExp f).toNat * 2 ^ f.fracBits % 2 = 0 :=
    Nat.mod_eq_zero_of_dvd ((dvd_pow_self 2 (Nat.one_le_iff_ne_zero.mp hf.2)).mul_left _)
  refine ⟨(top - minExp f).toNat * 2 ^ f.fracBits + N / D, ?_⟩
  rw [magRat_place hcarry.le hnormal, Nat.add_assoc, magRat_place hcarry (hnormal.imp_right Nat.le_succ_of_le), hplace,
    Nat.cast_succ, ← div_mul_cancel₀ a hulp.ne']
  exact hround.scale hulp heven

end Sys2Proof.Machine
end

section
/-! SUPPORT. The rounded magnitude with its sign is what `CorrectlyRounded` asks for (spec/47_floating_point.md R223). -/

namespace Sys2Proof.Machine

-- The ends of the finite numbers

/-- The last place of the largest finite magnitude (R223). -/
theorem largest_place {f : Format} (hf : f.Wide) : minExp f - f.fracBits + (2 ^ f.expBits - 3 : Nat) = bias f - f.fracBits := by
  obtain ⟨hexp, -⟩ := hf
  have hfour : 4 ≤ 2 ^ f.expBits := Nat.pow_le_pow_right two_pos hexp
  have hhalf : (2 : Int) ^ f.expBits = 2 * 2 ^ (f.expBits - 1) := by rw [← pow_succ']; congr 1; omega
  rw [minExp, bias, Nat.cast_sub (by omega)]
  push_cast
  omega

theorem infBits_eq_place {f : Format} (hf : f.Wide) :
    infBits f = (2 ^ f.expBits - 3) * 2 ^ f.fracBits + 2 ^ (f.fracBits + 1) := by
  have hfour : 4 ≤ 2 ^ f.expBits := Nat.pow_le_pow_right two_pos hf.1
  rw [infBits, pow_succ, Nat.mul_comm (2 ^ f.fracBits) 2, ← Nat.add_mul]
  congr 1
  omega

theorem magRat_infBits {f : Format} (hf : f.Wide) : magRat f (infBits f) = 2 * (2 : ℚ) ^ bias f := by
  rw [infBits_eq_place hf, magRat_place le_rfl (.inr (Nat.pow_le_pow_right two_pos (Nat.le_succ _))), largest_place hf,
    zpow_sub₀ two_ne_zero, pow_succ, zpow_natCast]
  push_cast
  field_simp

theorem magRat_maxFinite {f : Format} (hf : f.Wide) : magRat f (maxFinite f) = largest f := by
  have hpos : 0 < 2 ^ f.fracBits := by positivity
  have hmax : maxFinite f = (2 ^ f.expBits - 3) * 2 ^ f.fracBits + (2 ^ (f.fracBits + 1) - 1) := by
    rw [maxFinite, infBits_eq_place hf]
    exact Nat.add_sub_assoc Nat.one_le_two_pow _
  rw [hmax, magRat_place (Nat.sub_le _ _) (.inr (by rw [pow_succ]; omega)), largest_place hf, zpow_sub₀ two_ne_zero, largest,
    zpow_neg, Nat.cast_sub Nat.one_le_two_pow, pow_succ, zpow_natCast]
  push_cast
  field_simp

/-- The limit of rounding to nearest lies half way between the largest finite number and the next magnitude. -/
theorem two_mul_nearestLimit {f : Format} (hf : f.Wide) :
    2 * nearestLimit f = magRat f (maxFinite f) + magRat f (infBits f) := by
  rw [magRat_infBits hf, magRat_maxFinite hf, nearestLimit, largest, zpow_sub_one₀ two_ne_zero]
  ring

theorem maxFinite_add_one {f : Format} (hf : f.Wide) : maxFinite f + 1 = infBits f := Nat.sub_add_cancel (infBits_pos hf)

theorem maxFinite_odd {f : Format} (hf : f.Wide) : maxFinite f % 2 = 1 := by
  have heven : infBits f % 2 = 0 :=
    Nat.mod_eq_zero_of_dvd ((dvd_pow_self 2 (Nat.one_le_iff_ne_zero.mp hf.2)).mul_left _)
  have := maxFinite_add_one hf
  omega

-- The rounded magnitude, overflow included

/-- The positive number `a` is rounded to the infinity: the first case of `CorrectlyRounded`, without the sign. -/
def Overflows (dir : Direction) (f : Format) (a : ℚ) : Prop :=
  match dir with
  | .nearest => nearestLimit f ≤ a
  | .down => False
  | .up => largest f < a

/-- The positive number `a` is rounded to the finite magnitude `w`: the second case of `CorrectlyRounded`, without the sign. -/
def Closest (dir : Direction) (f : Format) (a : ℚ) (w : Nat) : Prop :=
  match dir with
  | .nearest => a < nearestLimit f ∧
      ∀ c, |a - magRat f w| ≤ |a - magRat f c| ∧
        (|a - magRat f w| = |a - magRat f c| → magRat f c = magRat f w ∨ w % 2 = 0)
  | .down => magRat f w ≤ a ∧ ∀ c < infBits f, magRat f c ≤ a → magRat f c ≤ magRat f w
  | .up => a ≤ magRat f w ∧ ∀ c, a ≤ magRat f c → magRat f w ≤ magRat f c

/-- `w` is the magnitude, finite or infinite, that the direction gives for the positive number `a`. -/
def CorrectMag (dir : Direction) (f : Format) (a : ℚ) (w : Nat) : Prop :=
  (w = infBits f ∧ Overflows dir f a) ∨ (w < infBits f ∧ Closest dir f a w)

theorem overflowBits_eq (f : Format) (rm : RoundMode) (neg : Bool) :
    overflowBits f rm neg = match directionOf rm neg with
      | .down => maxFinite f
      | _ => infBits f := by
  cases rm <;> cases neg <;> rfl

section
variable {f : Format} {a : ℚ} {lo m : Nat}

/-- A magnitude is at most the lower neighbour or at least the higher one. -/
theorem magRat_le_or_ge (f : Format) (lo c : Nat) : magRat f c ≤ magRat f lo ∨ magRat f (lo + 1) ≤ magRat f c := by
  rw [(magRat_strictMono f).le_iff_le, (magRat_strictMono f).le_iff_le]
  omega

theorem correctMag_down (hf : f.Wide) (h : Rounded .down lo (magRat f lo) (magRat f (lo + 1)) a m) :
    CorrectMag .down f a (if infBits f ≤ m then maxFinite f else m) := by
  obtain ⟨hlow, hhigh, rfl⟩ := h
  have hmax := maxFinite_add_one hf
  have hmono := (magRat_strictMono f).monotone
  split
  case isTrue hle => exact .inr ⟨by omega, (hmono (by omega)).trans hlow, fun c hc _ => hmono (by omega)⟩
  case isFalse hlt =>
    refine .inr ⟨Nat.not_le.mp hlt, hlow, fun c _ hca => ?_⟩
    rcases magRat_le_or_ge f m c with h | h
    · exact h
    · exact absurd (hhigh.trans_le h) (not_lt.mpr hca)

theorem correctMag_up (hf : f.Wide) (h : Rounded .up lo (magRat f lo) (magRat f (lo + 1)) a m) :
    CorrectMag .up f a (if infBits f ≤ m then infBits f else m) := by
  obtain ⟨hlow, hhigh, hchoice⟩ := h
  have hmax := maxFinite_add_one hf
  have hmono := magRat_strictMono f
  split
  case isTrue hle =>
    refine .inl ⟨rfl, ?_⟩
    rw [Overflows, ← magRat_maxFinite hf]
    obtain ⟨rfl, -⟩ | ⟨rfl, ha⟩ := hchoice
    · exact (hmono (by omega)).trans_le hlow
    · exact (hmono.monotone (by omega)).trans_lt ha
  case isFalse hlt =>
    refine .inr ⟨Nat.not_le.mp hlt, ?_⟩
    obtain ⟨rfl, rfl⟩ | ⟨rfl, ha⟩ := hchoice
    · exact ⟨le_rfl, fun c hc => hc⟩
    · refine ⟨hhigh.le, fun c hc => ?_⟩
      rcases magRat_le_or_ge f lo c with h | h
      · exact absurd (ha.trans_le hc) (not_lt.mpr h)
      · exact h

/-- Of two neighbours the nearer one is the nearest of all magnitudes, and on a tie the even one. -/
theorem nearest_of_rounded (h : Rounded .nearest lo (magRat f lo) (magRat f (lo + 1)) a m) (c : Nat) :
    |a - magRat f m| ≤ |a - magRat f c| ∧
      (|a - magRat f m| = |a - magRat f c| → magRat f c = magRat f m ∨ m % 2 = 0) := by
  obtain ⟨hlow, hhigh, hchoice⟩ := h
  obtain ⟨rfl, hnear⟩ | ⟨rfl, hnear⟩ := hchoice
  · rw [abs_of_nonneg (sub_nonneg.mpr hlow)]
    rcases magRat_le_or_ge f m c with hc | hc
    · rw [abs_of_nonneg (by linarith)]
      exact ⟨by linarith, fun he => .inl (by linarith)⟩
    · rw [abs_of_nonpos (by linarith)]
      rcases hnear with hlt | ⟨htie, heven⟩
      · exact ⟨by linarith, fun he => by linarith⟩
      · exact ⟨by linarith, fun _ => .inr heven⟩
  · rw [abs_of_nonpos (sub_nonpos.mpr hhigh.le)]
    rcases magRat_le_or_ge f lo c with hc | hc
    · rw [abs_of_nonneg (by linarith)]
      rcases hnear with hlt | ⟨htie, hodd⟩
      · exact ⟨by linarith, fun he => by linarith⟩
      · exact ⟨by linarith, fun _ => .inr (by omega)⟩
    · rw [abs_of_nonpos (by linarith)]
      exact ⟨by linarith, fun he => .inl (by linarith)⟩

theorem correctMag_nearest (hf : f.Wide) (h : Rounded .nearest lo (magRat f lo) (magRat f (lo + 1)) a m) :
    CorrectMag .nearest f a (if infBits f ≤ m then infBits f else m) := by
  have hmax := maxFinite_add_one hf
  have hlimit := two_mul_nearestLimit hf
  have hmono := (magRat_strictMono f).monotone
  have hends := hmono (show maxFinite f ≤ infBits f by omega)
  have hnearest := nearest_of_rounded h
  obtain ⟨hlow, hhigh, hchoice⟩ := h
  have hlo : lo = maxFinite f ∨ lo < maxFinite f ∨ infBits f ≤ lo := by omega
  split
  case isTrue hle =>
    refine .inl ⟨rfl, ?_⟩
    rw [Overflows]
    rcases hlo with rfl | hlt | hge
    · rw [hmax] at hhigh hchoice
      obtain ⟨rfl, -⟩ | ⟨-, hlt | ⟨htie, -⟩⟩ := hchoice
      · omega
      · linarith
      · linarith
    · obtain ⟨rfl, -⟩ | ⟨rfl, -⟩ := hchoice <;> omega
    · linarith [hmono hge]
  case isFalse hlt =>
    refine .inr ⟨Nat.not_le.mp hlt, ?_, hnearest⟩
    rcases hlo with rfl | hlt' | hge
    · rw [hmax] at hhigh hchoice
      obtain ⟨-, hlt | ⟨-, heven⟩⟩ | ⟨rfl, -⟩ := hchoice
      · linarith
      · exact absurd heven (by rw [maxFinite_odd hf]; decide)
      · omega
    · linarith [hmono (show lo + 1 ≤ maxFinite f from hlt')]
    · obtain ⟨rfl, -⟩ | ⟨rfl, -⟩ := hchoice <;> omega

theorem correctMag_clampMag (hf : f.Wide) {rm : RoundMode} {neg : Bool}
    (h : Rounded (directionOf rm neg) lo (magRat f lo) (magRat f (lo + 1)) a m) :
    CorrectMag (directionOf rm neg) f a (clampMag rm f neg m) := by
  rw [clampMag, overflowBits_eq]
  generalize directionOf rm neg = dir at h ⊢
  cases dir with
  | nearest => exact correctMag_nearest hf h
  | down => exact correctMag_down hf h
  | up => exact correctMag_up hf h

end

-- The sign

theorem abs_signUnit_mul (neg : Bool) (x : ℚ) : |signUnit neg * x| = |x| := by
  cases neg <;> simp [signUnit]

/-- A finite number on the other side of 0 is no nearer than the magnitude of 0. -/
theorem abs_signUnit_sub (neg s : Bool) {a z : ℚ} (ha : 0 < a) (hz : 0 ≤ z) :
    |signUnit neg * a - signUnit s * z| = if s = neg then |a - z| else a + z := by
  split
  case isTrue h => rw [h, ← mul_sub, abs_signUnit_mul]
  case isFalse h =>
    obtain rfl : s = !neg := Bool.eq_not.mpr h
    cases neg
    · simp [signUnit, abs_of_nonneg (add_nonneg ha.le hz)]
    · simp only [signUnit, if_true, Bool.not_true, Bool.false_eq_true, if_false, neg_mul, one_mul]
      rw [← neg_add', abs_neg, abs_of_nonneg (add_nonneg ha.le hz)]

theorem signUnit_mul_neg_iff (neg : Bool) {a : ℚ} (ha : 0 < a) : signUnit neg * a < 0 ↔ neg = true := by
  cases neg <;> simp [signUnit, ha, ha.le]

theorem signUnit_not_mul (neg : Bool) (x : ℚ) : signUnit (!neg) * x = -(signUnit neg * x) := by
  cases neg <;> simp [signUnit]

theorem ratOf_magnitude (f : Format) (neg : Bool) (mag : Nat) :
    ratOf neg (significand f mag) (lastPlace f mag) = signUnit neg * magRat f mag := ratOf_eq_signUnit _ _ _

theorem unpack_withSign_infBits (f : Format) (neg : Bool) : unpack f (withSign f neg (infBits f)) = .inf neg := by
  have hmag := magOf_withSign neg (infBits_lt f)
  rw [unpack_of_infinite hmag.ge, if_pos hmag, signOf_withSign neg (infBits_lt f)]

theorem unpack_withSign_of_finite {f : Format} (neg : Bool) {mag : Nat} (h : mag < infBits f) :
    unpack f (withSign f neg mag) = .fin neg (significand f mag) (lastPlace f mag) := by
  have hlt := h.trans (infBits_lt f)
  rw [unpack_of_finite (by rwa [magOf_withSign neg hlt]), magOf_withSign neg hlt, signOf_withSign neg hlt]

theorem signUnit_false : signUnit false = 1 := rfl

theorem signUnit_true : signUnit true = -1 := rfl

/-- A negative number is not above a positive one. -/
theorem le_signed_of_le {f : Format} {a y : ℚ} (ha : 0 < a) (hbest : ∀ c, a ≤ magRat f c → y ≤ magRat f c) (s : Bool)
    (c : Nat) (h : a ≤ signUnit s * magRat f c) : y ≤ signUnit s * magRat f c := by
  cases s with
  | false => rw [signUnit_false, one_mul] at h ⊢; exact hbest c h
  | true => rw [signUnit_true] at h; linarith [magRat_nonneg f c]

/-- A negative number is below every magnitude. -/
theorem signed_le_of_le {f : Format} {a : ℚ} {w c : Nat} (hbest : magRat f c ≤ a → magRat f c ≤ magRat f w) (s : Bool)
    (h : signUnit s * magRat f c ≤ a) : signUnit s * magRat f c ≤ magRat f w := by
  cases s with
  | false => rw [signUnit_false, one_mul] at h ⊢; exact hbest h
  | true => rw [signUnit_true]; linarith [magRat_nonneg f c, magRat_nonneg f w]

theorem clampMag_le (f : Format) (rm : RoundMode) (neg : Bool) (mag : Nat) : clampMag rm f neg mag ≤ infBits f := by
  have hmax : maxFinite f ≤ infBits f := Nat.sub_le _ _
  rw [clampMag, overflowBits_eq]
  split
  · split
    · exact hmax
    · exact le_rfl
  · omega

/-- A number that is nearest of the magnitudes is, with the sign, nearest of all numbers of the format. -/
theorem Closest.nearest_signed {f : Format} (hf : f.Wide) {a : ℚ} {w : Nat} (ha : 0 < a) (h : Closest .nearest f a w)
    (neg s : Bool) (c : Nat) : |signUnit neg * a - signUnit neg * magRat f w| ≤ |signUnit neg * a - signUnit s * magRat f c| ∧
    (|signUnit neg * a - signUnit neg * magRat f w| = |signUnit neg * a - signUnit s * magRat f c| →
      signUnit s * magRat f c = signUnit neg * magRat f w ∨ withSign f neg w % 2 = 0) := by
  obtain ⟨-, hnear⟩ := h
  have hc := magRat_nonneg f c
  rw [abs_signUnit_sub neg neg ha (magRat_nonneg f w), if_pos rfl, abs_signUnit_sub neg s ha hc, withSign_mod_two hf]
  split
  case isTrue hs =>
    rw [hs]
    exact (hnear c).imp_right fun htie he => (htie he).imp_left (congrArg _)
  case isFalse =>
    obtain ⟨hle, htie⟩ := hnear 0
    rw [magRat_zero, sub_zero, abs_of_pos ha] at hle htie
    refine ⟨by linarith, fun he => ?_⟩
    have hzero : magRat f c = 0 := by linarith
    exact (htie (by linarith)).imp_left fun h0 => by rw [hzero, ← h0, mul_zero, mul_zero]

section
variable {f : Format} {a : ℚ} {w : Nat} {rm : RoundMode} {neg : Bool}

theorem correctlyRounded_infinite (h : Overflows (directionOf rm neg) f a) :
    CorrectlyRounded rm f (signUnit neg * a) (withSign f neg (infBits f)) := by
  rw [CorrectlyRounded, unpack_withSign_infBits]
  cases rm with
  | nearestEven =>
    have hlimit : nearestLimit f ≤ a := h
    cases neg <;> simpa [signUnit] using hlimit
  | towardZero => exact absurd h id
  | towardPlusInf => cases neg with
    | false => exact ⟨rfl, by rwa [signUnit_false, one_mul]⟩
    | true => exact absurd h id
  | towardMinusInf => cases neg with
    | false => exact absurd h id
    | true => exact ⟨rfl, by rw [signUnit_true, neg_one_mul]; exact neg_lt_neg h⟩

theorem correctlyRounded_finite (hf : f.Wide) (ha : 0 < a) (hw : w < infBits f) (h : Closest (directionOf rm neg) f a w) :
    CorrectlyRounded rm f (signUnit neg * a) (withSign f neg w) := by
  rw [CorrectlyRounded, unpack_withSign_of_finite neg hw]
  simp only [ratOf_magnitude, finiteValue_eq_some_iff]
  refine ⟨fun _ => Bool.eq_iff_iff.mpr (by simp [signUnit_mul_neg_iff neg ha]), ?_⟩
  cases rm with
  | nearestEven =>
    rw [abs_signUnit_mul, abs_of_pos ha]
    exact ⟨h.1, fun c z ⟨_, hz⟩ => hz ▸ h.nearest_signed hf ha neg _ _⟩
  | towardZero =>
    obtain ⟨hle, hbest⟩ := h
    have hwpos := magRat_nonneg f w
    simp only [abs_signUnit_mul, abs_of_pos ha, abs_of_nonneg hwpos]
    refine ⟨by cases neg <;> simp [signUnit] <;> positivity, hle, ?_⟩
    rintro c z ⟨hc, rfl⟩
    rw [abs_signUnit_mul, abs_of_nonneg (magRat_nonneg f _)]
    exact hbest _ hc
  | towardPlusInf =>
    cases neg with
    | false =>
      obtain ⟨hle, hbest⟩ := h
      simp only [signUnit_false, one_mul]
      exact ⟨hle, fun c z ⟨_, hz⟩ => hz ▸ le_signed_of_le ha hbest _ _⟩
    | true =>
      obtain ⟨hle, hbest⟩ := h
      simp only [signUnit_true, neg_mul, one_mul, neg_le_neg_iff]
      refine ⟨hle, fun c z ⟨hc, hz⟩ hxz => ?_⟩
      rw [hz, neg_le, ← signUnit_not_mul] at hxz ⊢
      exact signed_le_of_le (hbest _ hc) _ hxz
  | towardMinusInf =>
    cases neg with
    | false =>
      obtain ⟨hle, hbest⟩ := h
      simp only [signUnit_false, one_mul]
      exact ⟨hle, fun c z ⟨hc, hz⟩ => hz ▸ signed_le_of_le (hbest _ hc) _⟩
    | true =>
      obtain ⟨hle, hbest⟩ := h
      simp only [signUnit_true, neg_mul, one_mul, neg_le_neg_iff]
      refine ⟨hle, fun c z ⟨_, hz⟩ hxz => ?_⟩
      rw [hz, le_neg, ← signUnit_not_mul] at hxz ⊢
      exact le_signed_of_le ha hbest _ _ hxz

/-- `roundTo` rounds correctly (P-round of R223). -/
theorem roundTo_correct {fp : FpRecord} (hf : f.Wide) (hflush : fp.flush = false) (neg : Bool) {n d : Nat} (hn : 0 < n)
    (hd : 0 < d) (e : Int) : CorrectlyRounded fp.rm f (ratOf neg n e / d) (roundTo fp f neg n d e) := by
  obtain ⟨lo, h⟩ := roundedMag_rounded hf fp.rm neg hn hd e
  have hx : ratOf neg n e / d = signUnit neg * (n / d * (2 : ℚ) ^ e) := by rw [ratOf_eq_signUnit]; ring
  have hmag := correctMag_clampMag hf h
  rw [hx, roundTo_eq, hflush, flushMag, Bool.false_and, if_neg Bool.false_ne_true]
  obtain ⟨hinf, hover⟩ | ⟨hfin, hclosest⟩ := hmag
  · rw [hinf]
    exact correctlyRounded_infinite hover
  · exact correctlyRounded_finite hf (by positivity) hfin hclosest

end

end Sys2Proof.Machine
end

section
/-! SUPPORT. The results of the functions on finite operands (spec/47_floating_point.md R223, R226 to R247), and the functions of
the record as those on values, said once for both formats. -/

namespace Sys2Proof.Machine

-- Results on values

/-- The result is a pattern of the format of which `P` holds. -/
def Yields (f : Format) (r : FpResult) (P : Nat → Prop) : Prop :=
  ∃ n < 2 ^ (f.expBits + f.fracBits + 1), r = .bits n ∧ P n

/-- `n` is the exact number `x` rounded, or the zero of the sign `s` where `x` is 0. -/
structure RoundsTo (rm : RoundMode) (f : Format) (x : ℚ) (s : Bool) (n : Nat) : Prop where
  rounded : x ≠ 0 → CorrectlyRounded rm f x n
  zero : x = 0 → isZero f s n

theorem yields_withSign {f : Format} {P : Nat → Prop} (neg : Bool) {mag : Nat} (h : mag < 2 ^ (f.expBits + f.fracBits))
    (hP : P (withSign f neg mag)) : Yields f (.bits (withSign f neg mag)) P := ⟨_, withSign_lt neg h, rfl, hP⟩

theorem isZero_withSign {f : Format} (hf : f.Wide) (neg : Bool) : isZero f neg (withSign f neg 0) :=
  (isZero_iff hf).mpr ⟨magOf_withSign neg (by positivity), signOf_withSign neg (by positivity)⟩

theorem ratOf_eq_zero_iff {neg : Bool} {m : Nat} {e : Int} : ratOf neg m e = 0 ↔ m = 0 := by
  cases neg <;> simp [ratOf, zpow_ne_zero]

theorem ratOf_not (neg : Bool) (m : Nat) (e : Int) : ratOf (!neg) m e = -ratOf neg m e := by
  rw [ratOf_eq_signUnit, ratOf_eq_signUnit, signUnit_not_mul]

theorem signUnit_bne (s t : Bool) : signUnit (s != t) = signUnit s * signUnit t := by
  cases s <;> cases t <;> simp [signUnit]

theorem ratOf_mul_ratOf (n1 : Bool) (m1 : Nat) (e1 : Int) (n2 : Bool) (m2 : Nat) (e2 : Int) :
    ratOf n1 m1 e1 * ratOf n2 m2 e2 = ratOf (n1 != n2) (m1 * m2) (e1 + e2) := by
  simp only [ratOf_eq_signUnit, signUnit_bne, zpow_add₀ (two_ne_zero' ℚ), Nat.cast_mul]
  ring

theorem ratOf_div_ratOf (n1 : Bool) (m1 : Nat) (e1 : Int) (n2 : Bool) (m2 : Nat) (e2 : Int) :
    ratOf n1 m1 e1 / ratOf n2 m2 e2 = ratOf (n1 != n2) m1 (e1 - e2) / m2 := by
  have hinv : (signUnit n2)⁻¹ = signUnit n2 := by cases n2 <;> norm_num [signUnit]
  simp only [ratOf_eq_signUnit, signUnit_bne, zpow_sub₀ (two_ne_zero' ℚ), div_eq_mul_inv, mul_inv, hinv]
  ring

theorem flushMag_le (flush : Bool) (f : Format) (mag : Nat) : flushMag flush f mag ≤ mag := by
  rw [flushMag]
  split <;> omega

theorem signedMag_natAbs (z : Int) : signedMag (z < 0) z.natAbs = z := by
  simp only [signedMag, decide_eq_true_eq]
  split <;> omega

/-- The sign of an exact zero sum (R223). -/
def zeroSumSign (rm : RoundMode) (s t : Bool) : Bool := if s == t then s else rm == .towardMinusInf

section
variable {fp : FpRecord} {f : Format}

theorem roundTo_lt (neg : Bool) (n d : Nat) (e : Int) : roundTo fp f neg n d e < 2 ^ (f.expBits + f.fracBits + 1) :=
  withSign_lt neg ((flushMag_le _ _ _).trans_lt ((clampMag_le f _ _ _).trans_lt (infBits_lt f)))

variable (hf : f.Wide) (hflush : fp.flush = false)
include hf

theorem yields_zero {x : ℚ} (hx : x = 0) (rm : RoundMode) (neg : Bool) :
    Yields f (.bits (withSign f neg 0)) (RoundsTo rm f x neg) :=
  yields_withSign neg (by positivity) ⟨absurd hx, fun _ => isZero_withSign hf neg⟩

include hflush

theorem packFin_rounds (neg : Bool) (m : Nat) (e : Int) :
    Yields f (packFin fp f neg m e) (RoundsTo fp.rm f (ratOf neg m e) neg) := by
  rw [packFin]
  split
  case isTrue hm => exact yields_zero hf (ratOf_eq_zero_iff.mpr hm) fp.rm neg
  case isFalse hm =>
    have hround := roundTo_correct hf hflush neg (Nat.pos_of_ne_zero hm) one_pos e
    rw [Nat.cast_one, div_one] at hround
    exact ⟨_, roundTo_lt _ _ _ _, rfl, fun _ => hround, fun hx => absurd (ratOf_eq_zero_iff.mp hx) hm⟩

theorem addFin_rounds (n1 : Bool) (m1 : Nat) (e1 : Int) (n2 : Bool) (m2 : Nat) (e2 : Int) :
    Yields f (addFin fp f n1 m1 e1 n2 m2 e2)
      (RoundsTo fp.rm f (ratOf n1 m1 e1 + ratOf n2 m2 e2) (zeroSumSign fp.rm n1 n2)) := by
  rw [← signedMag_mul_two_zpow n1 m1 (min_le_left e1 e2), ← signedMag_mul_two_zpow n2 m2 (min_le_right e1 e2), ← add_mul,
    ← Int.cast_add, addFin]
  generalize signedMag n1 (m1 * 2 ^ (e1 - min e1 e2).toNat) + signedMag n2 (m2 * 2 ^ (e2 - min e1 e2).toNat) = sum
  split
  case isTrue hsum => exact yields_zero hf (by simp [hsum]) fp.rm _
  case isFalse hsum =>
    have hx : ratOf (sum < 0) sum.natAbs (min e1 e2) = sum * (2 : ℚ) ^ min e1 e2 := by
      rw [ratOf_eq_signedMag, signedMag_natAbs]
    obtain ⟨n, hn, hr, hround⟩ := packFin_rounds hf hflush (sum < 0) sum.natAbs (min e1 e2)
    rw [hx] at hround
    exact ⟨n, hn, hr, hround.rounded, fun h0 => absurd h0 (mul_ne_zero (Int.cast_ne_zero.mpr hsum) (by positivity))⟩

theorem fpSub_rounds (n1 : Bool) (m1 : Nat) (e1 : Int) (n2 : Bool) (m2 : Nat) (e2 : Int) :
    Yields f (fpSub fp f (.fin n1 m1 e1) (.fin n2 m2 e2))
      (RoundsTo fp.rm f (ratOf n1 m1 e1 - ratOf n2 m2 e2) (zeroSumSign fp.rm n1 (!n2))) := by
  rw [sub_eq_add_neg, ← ratOf_not]
  exact addFin_rounds hf hflush n1 m1 e1 (!n2) m2 e2

theorem fpMul_rounds (n1 : Bool) (m1 : Nat) (e1 : Int) (n2 : Bool) (m2 : Nat) (e2 : Int) :
    Yields f (fpMul fp f (.fin n1 m1 e1) (.fin n2 m2 e2)) (RoundsTo fp.rm f (ratOf n1 m1 e1 * ratOf n2 m2 e2) (n1 != n2)) := by
  rw [ratOf_mul_ratOf]
  exact packFin_rounds hf hflush _ _ _

theorem fpDiv_rounds (n1 : Bool) (m1 : Nat) (e1 : Int) (n2 : Bool) (m2 : Nat) (e2 : Int) (h2 : ratOf n2 m2 e2 ≠ 0) :
    Yields f (fpDiv fp f (.fin n1 m1 e1) (.fin n2 m2 e2)) (RoundsTo fp.rm f (ratOf n1 m1 e1 / ratOf n2 m2 e2) (n1 != n2)) := by
  have hm2 : m2 ≠ 0 := mt ratOf_eq_zero_iff.mpr h2
  rw [fpDiv, if_neg hm2]
  split
  case isTrue hm1 => exact yields_zero hf (by rw [ratOf_eq_zero_iff.mpr hm1, zero_div]) fp.rm _
  case isFalse hm1 =>
    have hround := roundTo_correct hf hflush (n1 != n2) (Nat.pos_of_ne_zero hm1) (Nat.pos_of_ne_zero hm2) (e1 - e2)
    rw [← ratOf_div_ratOf] at hround
    exact ⟨_, roundTo_lt _ _ _ _, rfl, fun _ => hround, fun h0 => absurd h0 (div_ne_zero (mt ratOf_eq_zero_iff.mp hm1) h2)⟩

theorem fpFma_rounds (n1 : Bool) (m1 : Nat) (e1 : Int) (n2 : Bool) (m2 : Nat) (e2 : Int) (n3 : Bool) (m3 : Nat) (e3 : Int) :
    Yields f (fpFma fp f (.fin n1 m1 e1) (.fin n2 m2 e2) (.fin n3 m3 e3))
      (RoundsTo fp.rm f (ratOf n1 m1 e1 * ratOf n2 m2 e2 + ratOf n3 m3 e3) (zeroSumSign fp.rm (n1 != n2) n3)) := by
  rw [ratOf_mul_ratOf]
  exact addFin_rounds hf hflush _ _ _ _ _ _

theorem fpOfInt_rounds (z : Int) : Yields f (fpOfInt fp f z) (RoundsTo fp.rm f z (z < 0)) := by
  have hz : ratOf (z < 0) z.natAbs 0 = z := by rw [ratOf_eq_signedMag, signedMag_natAbs, zpow_zero, mul_one]
  rw [← hz]
  exact packFin_rounds hf hflush _ _ _

end

end Sys2Proof.Machine
end

section
/-! SUPPORT. The functions of the default record as functions on values (spec/47_floating_point.md R222 to R224), said once for
both formats, and that they round correctly. -/

namespace Sys2Proof.Machine

-- Patterns as bit vectors

/-- The sign of a pattern is its first bit. -/
theorem signOf_toNat {f : Format} {w : Nat} (hw : w = f.expBits + f.fracBits + 1) (a : BitVec w) : signOf f a.toNat = a.msb := by
  subst hw
  rw [BitVec.msb_eq_getLsbD_last, BitVec.getLsbD, Nat.testBit_eq_decide_div_mod_eq, signOf, Nat.add_sub_cancel]
  rfl

/-- A finite pattern unpacks to a finite value of its sign. -/
theorem unpack_of_finiteValue {f : Format} {b : Nat} {x : ℚ} (h : finiteValue f b = some x) :
    ∃ m e, unpack f b = .fin (signOf f b) m e ∧ ratOf (signOf f b) m e = x := by
  obtain ⟨hlt, rfl⟩ := finiteValue_eq_some_iff.mp h
  exact ⟨_, _, unpack_of_finite hlt, ratOf_magnitude _ _ _⟩

-- Operands (R222; log 8)

theorem operand_of_nan {fp : FpRecord} {f : Format} {b : Nat} (h : isNan f b) : operand fp f b = .nan := by
  simp only [operand, show unpack f b = .nan from h]

theorem operand_of_inf {fp : FpRecord} {f : Format} {b : Nat} {neg : Bool} (h : isInf f neg b) : operand fp f b = .inf neg := by
  simp only [operand, show unpack f b = .inf neg from h]

/-- Without `flush`, or where flush leaves operands alone, an operand is the value of its pattern. -/
theorem operand_of_not_both {fp : FpRecord} (h : ¬(fp.flush && fp.flushOperands) = true) (f : Format) (b : Nat) :
    operand fp f b = unpack f b := by
  simp only [operand, h, Bool.false_and, Bool.false_eq_true, if_false]
  split
  case h_1 hb => exact hb.symm
  case h_2 => rfl

theorem operand_of_not_flush {fp : FpRecord} (h : fp.flush = false) (f : Format) (b : Nat) : operand fp f b = unpack f b :=
  operand_of_not_both (by simp [h]) f b

/-- A finite operand is finite, with its sign, whether flushed or not. -/
theorem operand_of_fin {fp : FpRecord} {f : Format} {b : Nat} {neg : Bool} {m : Nat} {e : Int} (h : unpack f b = .fin neg m e) :
    ∃ m', operand fp f b = .fin neg m' e := by
  simp only [operand, h]
  split
  · exact ⟨0, rfl⟩
  · exact ⟨m, rfl⟩

-- Results (R222, R224)

/-- The pattern `v` is the result `r`, whose bits where it is a NaN are under no law. -/
structure IsResult (f : Format) {w : Nat} (r : FpResult) (v : BitVec w) : Prop where
  bits : ∀ n < 2 ^ w, r = .bits n → v.toNat = n
  nan : r = .nan → isNan f v.toNat

theorem IsResult.of_yields {f : Format} {w : Nat} {r : FpResult} {v : BitVec w} {P : Nat → Prop} (h : IsResult f r v)
    (hw : w = f.expBits + f.fracBits + 1) (hy : Yields f r P) : P v.toNat := by
  obtain ⟨n, hn, hr, hP⟩ := hy
  rw [h.bits n (hw ▸ hn) hr]
  exact hP

/-- A pattern with an exponent field of all ones and a fraction that is not 0 is a NaN. -/
theorem isNan_of_fields {f : Format} {w : Nat} {v : BitVec w} (hexp : v.extractLsb' f.fracBits f.expBits = BitVec.allOnes _)
    (hfrac : v.extractLsb' 0 f.fracBits ≠ 0) : isNan f v.toNat := by
  have hexp' : v.toNat / 2 ^ f.fracBits % 2 ^ f.expBits = 2 ^ f.expBits - 1 := by
    rw [← Nat.shiftRight_eq_div_pow, ← BitVec.extractLsb'_toNat, hexp, BitVec.toNat_allOnes]
  have hfrac' : v.toNat % 2 ^ f.fracBits ≠ 0 := fun h =>
    hfrac (BitVec.eq_of_toNat_eq (by rw [BitVec.extractLsb'_toNat, Nat.shiftRight_zero, h]; rfl))
  rw [isNan, unpack]
  simp only [if_pos hexp', if_neg hfrac']

/-- Any bits with the exponent field set, and a fraction bit where there is none, are a NaN (P-nan of R224). -/
theorem isNan_quieted {f : Format} {w : Nat} (x : BitVec w) {ones quiet : BitVec w}
    (hones : ones.extractLsb' f.fracBits f.expBits = BitVec.allOnes _) (hquiet : quiet.extractLsb' 0 f.fracBits ≠ 0) :
    isNan f (if (x ||| ones).extractLsb' 0 f.fracBits = 0 then x ||| ones ||| quiet else x ||| ones).toNat := by
  split
  case isTrue hz =>
    refine isNan_of_fields ?_ ?_
    · rw [BitVec.extractLsb'_or, BitVec.extractLsb'_or, hones, BitVec.or_allOnes, BitVec.allOnes_or]
    · rw [BitVec.extractLsb'_or, hz]
      exact BitVec.zero_or.symm ▸ hquiet
  case isFalse hnz =>
    exact isNan_of_fields (by rw [BitVec.extractLsb'_or, hones, BitVec.or_allOnes]) hnz

theorem result32_bits {fp : FpRecord} (h : fp.functions = .ieee) (op : FpOp) (args : List Word) (n : Nat) :
    result32 fp op args (.bits n) = BitVec.ofNat 32 n := ofRecord_ieee h

theorem result32_nan {fp : FpRecord} (h : fp.functions = .ieee) (op : FpOp) (args : List Word) :
    result32 fp op args .nan = nan32 (Config.underNoLaw fp op args) := ofRecord_ieee h

theorem result32_isResult {fp : FpRecord} (h : fp.functions = .ieee) (op : FpOp) (args : List Word) (r : FpResult) :
    IsResult single r (result32 fp op args r) where
  bits n hn hr := by rw [hr, result32_bits h, BitVec.toNat_ofNat, Nat.mod_eq_of_lt hn]
  nan hr := by rw [hr, result32_nan h]; exact isNan_quieted _ (by decide) (by decide)

theorem result64_bits {fp : FpRecord} (h : fp.functions = .ieee) (op : FpOp) (args : List Word) (n : Nat) :
    result64 fp op args (.bits n) = BitVec.ofNat 64 n := ofRecord_ieee h

theorem result64_nan {fp : FpRecord} (h : fp.functions = .ieee) (op : FpOp) (args : List Word) :
    result64 fp op args .nan = nan64 (Config.underNoLaw fp op args) := ofRecord_ieee h

theorem result64_isResult {fp : FpRecord} (h : fp.functions = .ieee) (op : FpOp) (args : List Word) (r : FpResult) :
    IsResult double r (result64 fp op args r) where
  bits n hn hr := by rw [hr, result64_bits h, BitVec.toNat_ofNat, Nat.mod_eq_of_lt hn]
  nan hr := by rw [hr, result64_nan h]; exact isNan_quieted _ (by decide) (by decide)

-- The arithmetic of a format

/-- The arithmetic functions of the record on the patterns of a format are those on the values of the operands. -/
structure Arithmetic (fp : FpRecord) (f : Format) {w : Nat} (add sub mul div : BitVec w → BitVec w → BitVec w)
    (fma : BitVec w → BitVec w → BitVec w → BitVec w) : Prop where
  wide : f.Wide
  width : w = f.expBits + f.fracBits + 1
  add : ∀ a b, IsResult f (fpAdd fp f (operand fp f a.toNat) (operand fp f b.toNat)) (add a b)
  sub : ∀ a b, IsResult f (fpSub fp f (operand fp f a.toNat) (operand fp f b.toNat)) (sub a b)
  mul : ∀ a b, IsResult f (fpMul fp f (operand fp f a.toNat) (operand fp f b.toNat)) (mul a b)
  div : ∀ a b, IsResult f (fpDiv fp f (operand fp f a.toNat) (operand fp f b.toNat)) (div a b)
  fma : ∀ a b c, IsResult f (fpFma fp f (operand fp f a.toNat) (operand fp f b.toNat) (operand fp f c.toNat)) (fma a b c)

theorem arithmetic_single {fp : FpRecord} (h : fp.functions = .ieee) :
    Arithmetic fp single (fpAddS fp) (fpSubS fp) (fpMulS fp) (fpDivS fp) (fpFmaS fp) :=
  ⟨single_wide, rfl, fun _ _ => result32_isResult h _ _ _, fun _ _ => result32_isResult h _ _ _,
    fun _ _ => result32_isResult h _ _ _, fun _ _ => result32_isResult h _ _ _, fun _ _ _ => result32_isResult h _ _ _⟩

theorem arithmetic_double {fp : FpRecord} (h : fp.functions = .ieee) :
    Arithmetic fp double (fpAddD fp) (fpSubD fp) (fpMulD fp) (fpDivD fp) (fpFmaD fp) :=
  ⟨double_wide, rfl, fun _ _ => result64_isResult h _ _ _, fun _ _ => result64_isResult h _ _ _,
    fun _ _ => result64_isResult h _ _ _, fun _ _ => result64_isResult h _ _ _, fun _ _ _ => result64_isResult h _ _ _⟩

-- Correct rounding (R223)

/-- An operand of a record without flush has the value of its pattern. -/
theorem operand_of_finiteValue {fp : FpRecord} {f : Format} {w : Nat} {a : BitVec w} {x : ℚ} (hflush : fp.flush = false)
    (hw : w = f.expBits + f.fracBits + 1) (h : finiteValue f a.toNat = some x) :
    ∃ m e, operand fp f a.toNat = .fin a.msb m e ∧ ratOf a.msb m e = x := by
  rw [operand_of_not_flush hflush, ← signOf_toNat hw]
  exact unpack_of_finiteValue h

/-- The sign of an exact zero sum, as P-round says it. -/
theorem RoundsTo.sum {rm : RoundMode} {f : Format} {x : ℚ} {s t : Bool} {n : Nat} (h : RoundsTo rm f x (zeroSumSign rm s t) n) :
    (x ≠ 0 → CorrectlyRounded rm f x n) ∧ (x = 0 → s = t → isZero f t n) ∧
      (x = 0 → s ≠ t → isZero f (rm == .towardMinusInf) n) := by
  obtain ⟨hround, hzero⟩ := h
  refine ⟨hround, fun hx hst => ?_, fun hx hst => ?_⟩
  · simpa [zeroSumSign, hst] using hzero hx
  · simpa [zeroSumSign, hst] using hzero hx

section
variable {fp : FpRecord} {f : Format} {w : Nat} {add sub mul div : BitVec w → BitVec w → BitVec w}
  {fma : BitVec w → BitVec w → BitVec w → BitVec w}

theorem Arithmetic.rounds (A : Arithmetic fp f add sub mul div fma) (hflush : fp.flush = false) (a b : BitVec w) (x y : ℚ)
    (hx : finiteValue f a.toNat = some x) (hy : finiteValue f b.toNat = some y) :
    (x + y ≠ 0 → CorrectlyRounded fp.rm f (x + y) (add a b).toNat) ∧
    (x + y = 0 → a.msb = b.msb → isZero f a.msb (add a b).toNat) ∧
    (x + y = 0 → a.msb ≠ b.msb → isZero f (fp.rm == .towardMinusInf) (add a b).toNat) ∧
    (x - y ≠ 0 → CorrectlyRounded fp.rm f (x - y) (sub a b).toNat) ∧
    (x - y = 0 → a.msb ≠ b.msb → isZero f a.msb (sub a b).toNat) ∧
    (x - y = 0 → a.msb = b.msb → isZero f (fp.rm == .towardMinusInf) (sub a b).toNat) ∧
    (x * y ≠ 0 → CorrectlyRounded fp.rm f (x * y) (mul a b).toNat) ∧
    (x * y = 0 → isZero f (a.msb != b.msb) (mul a b).toNat) ∧
    (x ≠ 0 → y ≠ 0 → CorrectlyRounded fp.rm f (x / y) (div a b).toNat) ∧
    (x = 0 → y ≠ 0 → isZero f (a.msb != b.msb) (div a b).toNat) ∧
    ∀ (c : BitVec w) (z : ℚ), finiteValue f c.toNat = some z →
      (x * y + z ≠ 0 → CorrectlyRounded fp.rm f (x * y + z) (fma a b c).toNat) ∧
      (x * y + z = 0 → (a.msb != b.msb) = c.msb → isZero f c.msb (fma a b c).toNat) ∧
      (x * y + z = 0 → (a.msb != b.msb) ≠ c.msb → isZero f (fp.rm == .towardMinusInf) (fma a b c).toNat) := by
  obtain ⟨hf, hw, hadd, hsub, hmul, hdiv, hfma⟩ := A
  obtain ⟨m, e, ha, rfl⟩ := operand_of_finiteValue hflush hw hx
  obtain ⟨m', e', hb, rfl⟩ := operand_of_finiteValue hflush hw hy
  specialize hadd a b
  specialize hsub a b
  specialize hmul a b
  specialize hdiv a b
  rw [ha, hb] at hadd hsub hmul hdiv
  obtain ⟨hadd1, hadd2, hadd3⟩ := (hadd.of_yields hw (addFin_rounds hf hflush ..)).sum
  obtain ⟨hsub1, hsub2, hsub3⟩ := (hsub.of_yields hw (fpSub_rounds hf hflush ..)).sum
  obtain ⟨hmul1, hmul2⟩ := hmul.of_yields hw (fpMul_rounds hf hflush ..)
  have hquot := fun h0 => hdiv.of_yields hw (fpDiv_rounds hf hflush _ m e _ m' e' h0)
  refine ⟨hadd1, fun h0 hs => hs ▸ hadd2 h0 hs, hadd3, hsub1, fun h0 hs => ?_, fun h0 hs => hsub3 h0 (by simp [hs]),
    hmul1, hmul2, fun hx0 hy0 => (hquot hy0).rounded (div_ne_zero hx0 hy0),
    fun hx0 hy0 => (hquot hy0).zero (by rw [hx0, zero_div]), fun c z hz => ?_⟩
  · have hs' : a.msb = !b.msb := Bool.eq_not.mpr hs
    exact hs' ▸ hsub2 h0 hs'
  · obtain ⟨m'', e'', hc, rfl⟩ := operand_of_finiteValue hflush hw hz
    specialize hfma a b c
    rw [ha, hb, hc] at hfma
    exact (hfma.of_yields hw (fpFma_rounds hf hflush ..)).sum

end

-- Conversions (R242 to R247)

theorem cvtSD_isResult {fp : FpRecord} (h : fp.functions = .ieee) (a : Word) :
    IsResult single (fpConvert fp single (operand fp double a.toNat)) (fpCvtSD fp a) := result32_isResult h _ _ _

theorem cvtDS_isResult {fp : FpRecord} (h : fp.functions = .ieee) (a : BitVec 32) :
    IsResult double (fpConvert fp double (operand fp single a.toNat)) (fpCvtDS fp a) := result64_isResult h _ _ _

/-- A conversion of a finite number between the formats rounds it, and keeps the sign of a zero. -/
theorem convert_rounds {fp : FpRecord} {src dst : Format} {w w' : Nat} {a : BitVec w} {v : BitVec w'} {x : ℚ} (hdst : dst.Wide)
    (hw : w = src.expBits + src.fracBits + 1) (hw' : w' = dst.expBits + dst.fracBits + 1) (hflush : fp.flush = false)
    (hv : IsResult dst (fpConvert fp dst (operand fp src a.toNat)) v) (hx : finiteValue src a.toNat = some x) :
    (x ≠ 0 → CorrectlyRounded fp.rm dst x v.toNat) ∧ (x = 0 → isZero dst a.msb v.toNat) := by
  obtain ⟨m, e, ha, rfl⟩ := operand_of_finiteValue hflush hw hx
  rw [ha] at hv
  obtain ⟨hround, hzero⟩ := hv.of_yields hw' (packFin_rounds hdst hflush a.msb m e)
  exact ⟨hround, hzero⟩

/-- A conversion of an integer that is not 0 rounds it. -/
theorem ofInt_rounds {fp : FpRecord} {dst : Format} {w w' : Nat} {a : BitVec w} {v : BitVec w'} (hdst : dst.Wide)
    (hw' : w' = dst.expBits + dst.fracBits + 1) (hflush : fp.flush = false) (hv : IsResult dst (fpOfInt fp dst a.toInt) v)
    (ha : a ≠ 0) : CorrectlyRounded fp.rm dst a.toInt v.toNat :=
  (hv.of_yields hw' (fpOfInt_rounds hdst hflush a.toInt)).rounded
    (Int.cast_ne_zero.mpr fun h0 => ha (BitVec.eq_of_toInt_eq (h0.trans BitVec.toInt_zero.symm)))

/-- Settles O57: each function rounds the exact value of its operands by `roundTo`, which rounds correctly. -/
theorem roundsOnceCorrectly : Obligations.RoundsOnceCorrectly := fun _ hieee hflush =>
  ⟨(arithmetic_single hieee).rounds hflush, (arithmetic_double hieee).rounds hflush,
    fun a _ => convert_rounds single_wide rfl rfl hflush (cvtSD_isResult hieee a),
    fun a _ => convert_rounds double_wide rfl rfl hflush (cvtDS_isResult hieee a),
    fun _ ha => ⟨ofInt_rounds single_wide rfl hflush (result32_isResult hieee _ _ _) ha,
      ofInt_rounds double_wide rfl hflush (result64_isResult hieee _ _ _) ha⟩,
    fun _ ha => ⟨ofInt_rounds single_wide rfl hflush (result32_isResult hieee _ _ _) ha,
      ofInt_rounds double_wide rfl hflush (result64_isResult hieee _ _ _) ha⟩,
    result32_bits hieee _ _ 0, result32_bits hieee _ _ 0, result64_bits hieee _ _ 0, result64_bits hieee _ _ 0⟩

end Sys2Proof.Machine
end

section
/-! SUPPORT. Flushed operands, and the conversions of the default record to integers (spec/47_floating_point.md R222, R224 P-int,
R248 to R251; log 8). -/

namespace Sys2Proof.Machine

-- Flushing a pattern (R222)

/-- A pattern is its sign and its magnitude. -/
theorem withSign_signOf_magOf {f : Format} {b : Nat} (h : b < 2 ^ (f.expBits + f.fracBits + 1)) :
    withSign f (signOf f b) (magOf f b) = b := by
  have hdiv := Nat.div_add_mod b (2 ^ (f.expBits + f.fracBits))
  have hlt : b / 2 ^ (f.expBits + f.fracBits) < 2 := Nat.div_lt_of_lt_mul (by rwa [← Nat.pow_succ])
  rw [withSign, signOf, magOf]
  rcases Nat.lt_succ_iff_lt_or_eq.mp hlt with h0 | h1
  · rw [Nat.lt_one_iff.mp h0] at hdiv ⊢
    simpa using hdiv
  · rw [h1] at hdiv ⊢
    simpa using hdiv

theorem flushMag_true (f : Format) (mag : Nat) : flushMag true f mag = if mag < 2 ^ f.fracBits then 0 else mag := by
  simp [flushMag]

/-- Flushing keeps the sign of a pattern and replaces the magnitude of a denormal by 0. -/
theorem toNat_flushed {f : Format} {w : Nat} (hw : w = f.expBits + f.fracBits + 1) {signBit : BitVec w}
    (hbit : signBit.toNat = 2 ^ (f.expBits + f.fracBits)) (b : BitVec w) :
    (if b.extractLsb' f.fracBits f.expBits = 0 then b &&& signBit else b).toNat =
      withSign f (signOf f b.toNat) (flushMag true f (magOf f b.toNat)) := by
  have hdenormal : b.extractLsb' f.fracBits f.expBits = 0 ↔ magOf f b.toNat < 2 ^ f.fracBits := by
    rw [← BitVec.toNat_inj, BitVec.extractLsb'_toNat, Nat.shiftRight_eq_div_pow, expField_eq]
    exact Nat.div_eq_zero_iff_lt (by positivity)
  rw [flushMag_true, if_congr hdenormal rfl rfl]
  split
  case isTrue =>
    rw [BitVec.toNat_and, hbit, Nat.and_two_pow, Nat.testBit_eq_decide_div_mod_eq, signOf, withSign]
    rcases Nat.mod_two_eq_zero_or_one (b.toNat / 2 ^ (f.expBits + f.fracBits)) with h | h <;> simp [h]
  case isFalse => exact (withSign_signOf_magOf (hw ▸ b.isLt)).symm

theorem toNat_flushed32 (b : BitVec 32) :
    (flushed32 b).toNat = withSign single (signOf single b.toNat) (flushMag true single (magOf single b.toNat)) :=
  toNat_flushed (f := single) (signBit := 0x80000000) rfl rfl b

theorem toNat_flushed64 (b : Word) :
    (flushed64 b).toNat = withSign double (signOf double b.toNat) (flushMag true double (magOf double b.toNat)) :=
  toNat_flushed (f := double) (signBit := 0x8000000000000000) rfl rfl b

-- Operands as the functions of the record see them (log 8)

theorem significand_lt_iff {f : Format} {mag : Nat} : significand f mag < 2 ^ f.fracBits ↔ mag < 2 ^ f.fracBits := by
  have hpos : 0 < 2 ^ f.fracBits := by positivity
  have hdiv : mag / 2 ^ f.fracBits = 0 ↔ mag < 2 ^ f.fracBits := Nat.div_eq_zero_iff_lt hpos
  rw [significand]
  split
  case isTrue h => rw [Nat.mod_eq_of_lt (hdiv.mp h)]
  case isFalse h => exact ⟨fun hlt => by omega, fun hlt => absurd (hdiv.mpr hlt) h⟩

/-- An infinity and a NaN are no denormals. -/
theorem operand_of_infinite {fp : FpRecord} {f : Format} {b : Nat} (h : infBits f ≤ magOf f b) :
    operand fp f b = unpack f b := by
  rcases h.eq_or_lt with hinf | hnan
  · have hb : isInf f (signOf f b) b := isInf_iff.mpr ⟨hinf.symm, rfl⟩
    exact (operand_of_inf hb).trans hb.symm
  · have hb : isNan f b := isNan_iff.mpr hnan
    exact (operand_of_nan hb).trans hb.symm

/-- With `flush` and `flushOperands` an operand is the value of the flushed pattern. -/
theorem operand_of_flush {fp : FpRecord} (h : (fp.flush && fp.flushOperands) = true) {f : Format} (hf : f.Wide) {b : Nat}
    (hb : b < 2 ^ (f.expBits + f.fracBits + 1)) :
    operand fp f b = unpack f (withSign f (signOf f b) (flushMag true f (magOf f b))) := by
  rw [flushMag_true]
  rcases Nat.lt_or_ge (magOf f b) (infBits f) with hfin | hinf
  · simp only [operand, unpack_of_finite hfin, h, Bool.true_and, decide_eq_true_eq, significand_lt_iff]
    split
    case isTrue hlt =>
      rw [unpack_withSign_of_finite _ (infBits_pos hf), significand_eq_zero_iff.mpr rfl, lastPlace, lastPlace,
        Nat.div_eq_of_lt hlt, Nat.zero_div]
    case isFalse => rw [unpack_withSign_of_finite _ hfin]
  · have hnormal : ¬magOf f b < 2 ^ f.fracBits := by
      have hle := two_pow_fracBits_le_infBits hf
      omega
    rw [if_neg hnormal, withSign_signOf_magOf hb]
    exact operand_of_infinite hinf

theorem operand_eq_unpack_seen32 (fp : FpRecord) (b : BitVec 32) :
    operand fp single b.toNat = unpack single (seen32 fp b).toNat := by
  rw [seen32]
  split
  case isTrue h => rw [toNat_flushed32, operand_of_flush h single_wide b.isLt]
  case isFalse h => exact operand_of_not_both h _ _

theorem operand_eq_unpack_seen64 (fp : FpRecord) (b : Word) : operand fp double b.toNat = unpack double (seen64 fp b).toNat := by
  rw [seen64]
  split
  case isTrue h => rw [toNat_flushed64, operand_of_flush h double_wide b.isLt]
  case isFalse h => exact operand_of_not_both h _ _

-- Rounding to an integer (P-int of R224)

theorem signedMag_eq_signUnit_mul (neg : Bool) (m : Nat) : (signedMag neg m : ℚ) = signUnit neg * m := by
  cases neg <;> simp [signedMag, signUnit]

theorem signedMag_even {neg : Bool} {m : Nat} (h : m % 2 = 0) : signedMag neg m % 2 = 0 := by
  rw [signedMag]
  split <;> omega

/-- The integer chosen between the two neighbours of a magnitude is the rounding of the signed number. -/
theorem roundsToInt_of_rounded {rm : RoundMode} {neg : Bool} {q m : Nat} {a : ℚ}
    (h : Rounded (directionOf rm neg) q q (q + 1) a m) : RoundsToInt rm (signUnit neg * a) (signedMag neg m) := by
  obtain ⟨hlow, hhigh, hchoice⟩ := h
  have hq : (0 : ℚ) ≤ q := Nat.cast_nonneg q
  unfold RoundsToInt
  rw [signedMag_eq_signUnit_mul]
  cases rm with
  | nearestEven =>
    simp only [← mul_sub, abs_signUnit_mul]
    obtain ⟨rfl, hnear⟩ | ⟨rfl, hnear⟩ := hchoice
    · rw [abs_of_nonneg (by linarith)]
      exact hnear.imp (fun h => by linarith) fun ⟨h, heven⟩ => ⟨by linarith, signedMag_even heven⟩
    · push_cast
      rw [abs_of_nonpos (by linarith)]
      exact hnear.imp (fun h => by linarith) fun ⟨h, hodd⟩ => ⟨by linarith, signedMag_even (by omega)⟩
  | towardZero =>
    obtain rfl : m = q := hchoice
    rw [abs_signUnit_mul, abs_signUnit_mul, abs_of_nonneg hq, abs_of_nonneg (hq.trans hlow)]
    refine ⟨?_, hlow, hhigh⟩
    cases neg <;> simpa [signUnit] using mul_nonneg (hq.trans hlow) hq
  | towardPlusInf => cases neg with
    | false =>
      rw [signUnit_false, one_mul, one_mul]
      obtain ⟨rfl, rfl⟩ | ⟨rfl, h⟩ := hchoice
      · exact ⟨le_rfl, by linarith⟩
      · push_cast; exact ⟨hhigh.le, by linarith⟩
    | true =>
      obtain rfl : m = q := hchoice
      rw [signUnit_true]
      exact ⟨by linarith, by linarith⟩
  | towardMinusInf => cases neg with
    | false =>
      obtain rfl : m = q := hchoice
      rw [signUnit_false, one_mul, one_mul]
      exact ⟨hlow, hhigh⟩
    | true =>
      rw [signUnit_true]
      obtain ⟨rfl, rfl⟩ | ⟨rfl, h⟩ := hchoice
      · exact ⟨le_rfl, by linarith⟩
      · push_cast; exact ⟨by linarith, by linarith⟩

theorem eq_of_lt_add_one {y z : Int} (hyz : (y : ℚ) < z + 1) (hzy : (z : ℚ) < y + 1) : y = z := by
  norm_cast at hyz hzy
  omega

/-- Two integers within a half of a number are equal, or both lie a half away, and then only one of them is even. -/
theorem nearestEven_unique {x : ℚ} {y z : Int} (hy : |x - y| < 1 / 2 ∨ (|x - y| = 1 / 2 ∧ y % 2 = 0))
    (hz : |x - z| < 1 / 2 ∨ (|x - z| = 1 / 2 ∧ z % 2 = 0)) : y = z := by
  have hstrict (h : |x - y| + |x - z| < 1) : y = z := by
    obtain ⟨hlo, hhi⟩ := abs_lt.mp ((abs_sub (x - y) (x - z)).trans_lt h)
    exact eq_of_lt_add_one (by linarith) (by linarith)
  obtain hylt | ⟨hyhalf, hyeven⟩ := hy <;> obtain hzlt | ⟨hzhalf, hzeven⟩ := hz
  · exact hstrict (by linarith)
  · exact hstrict (by linarith)
  · exact hstrict (by linarith)
  · obtain ⟨hlo, hhi⟩ := abs_le.mp ((abs_sub (x - y) (x - z)).trans_eq (by rw [hyhalf, hzhalf]))
    have hyz : (y : ℚ) ≤ z + 1 := by linarith
    have hzy : (z : ℚ) ≤ y + 1 := by linarith
    norm_cast at hyz hzy
    omega

/-- Truncations have one magnitude, and two of them with different signs are 0. -/
theorem towardZero_unique {x : ℚ} {y z : Int} (hy : 0 ≤ x * y ∧ |(y : ℚ)| ≤ |x| ∧ |x| < |(y : ℚ)| + 1)
    (hz : 0 ≤ x * z ∧ |(z : ℚ)| ≤ |x| ∧ |x| < |(z : ℚ)| + 1) : y = z := by
  obtain ⟨hysign, hyle, hylt⟩ := hy
  obtain ⟨hzsign, hzle, hzlt⟩ := hz
  have habs : |y| = |z| :=
    eq_of_lt_add_one (by rw [Int.cast_abs, Int.cast_abs]; linarith) (by rw [Int.cast_abs, Int.cast_abs]; linarith)
  rcases abs_eq_abs.mp habs with h | h
  · exact h
  · rw [h, Int.cast_neg, mul_neg] at hysign
    have hz0 : z = 0 := by
      rcases mul_eq_zero.mp (le_antisymm (by linarith) hzsign : x * z = 0) with hx | hz
      · rw [hx, abs_zero] at hzle
        exact_mod_cast abs_nonpos_iff.mp hzle
      · exact_mod_cast hz
    rw [h, hz0, neg_zero]

/-- A mode rounds a number to one integer only. -/
theorem roundsToInt_unique {rm : RoundMode} {x : ℚ} {y z : Int} (hy : RoundsToInt rm x y) (hz : RoundsToInt rm x z) :
    y = z := by
  cases rm with
  | nearestEven => exact nearestEven_unique hy hz
  | towardZero => exact towardZero_unique hy hz
  | towardPlusInf => exact eq_of_lt_add_one (hy.2.trans_le (by linarith [hz.1])) (hz.2.trans_le (by linarith [hy.1]))
  | towardMinusInf => exact eq_of_lt_add_one (hy.1.trans_lt hz.2) (hz.1.trans_lt hy.2)

/-- The rounded integer is the one that the conversion gives. -/
theorem fpToInt_fin_of_roundsToInt {fp : FpRecord} {neg : Bool} {m : Nat} {e z : Int}
    (h : RoundsToInt fp.rm (ratOf neg m e) z) : fpToInt fp (.fin neg m e) = some z := by
  have hround := roundsToInt_of_rounded (roundQuotient_rounded (Nat.two_pow_pos (-e).toNat) fp.rm neg (m * 2 ^ e.toNat))
  rw [Nat.cast_mul, mul_div_assoc, ← two_zpow_eq_div, ← ratOf_eq_signUnit] at hround
  exact congrArg some (roundsToInt_unique hround h)

theorem toInt_resultInt {w : Nat} {fp : FpRecord} (hieee : fp.functions = .ieee) (hw : 0 < w) (op : FpOp) (args : List Word)
    {z : Int} (hlo : -(2 ^ (w - 1)) ≤ z) (hhi : z < 2 ^ (w - 1)) : (resultInt w fp op args (some z)).toInt = z := by
  have hresult : resultInt w fp op args (some z) = BitVec.ofInt w z := (ofRecord_ieee hieee).trans (if_pos ⟨hlo, hhi⟩)
  rw [hresult, BitVec.toInt_ofInt_eq_self hw hlo hhi]

/-- A conversion to an integer in range gives the rounded integer. -/
theorem convertToInt_inRange {w : Nat} {fp : FpRecord} (hieee : fp.functions = .ieee) (hw : 0 < w) (op : FpOp) (args : List Word)
    {u v : FpVal} (hu : u = v) {neg : Bool} {m : Nat} {e z : Int} (hv : v = .fin neg m e)
    (hround : RoundsToInt fp.rm (ratOf neg m e) z) (hlo : -(2 ^ (w - 1)) ≤ z) (hhi : z < 2 ^ (w - 1)) :
    (resultInt w fp op args (fpToInt fp u)).toInt = z := by
  rw [hu, hv, fpToInt_fin_of_roundsToInt hround]
  exact toInt_resultInt hieee hw op args hlo hhi

end Sys2Proof.Machine
end

section
/-! SUPPORT. NaN, infinite and zero operands of the functions of the default record (spec/47_floating_point.md R223, R224). -/

namespace Sys2Proof.Machine

-- The functions on values

section
variable (fp : FpRecord) (f : Format)

theorem fpAdd_nan {u v : FpVal} (h : u = .nan ∨ v = .nan) : fpAdd fp f u v = .nan := by
  obtain rfl | rfl := h
  · rfl
  · cases u <;> rfl

theorem fpSub_nan {u v : FpVal} (h : u = .nan ∨ v = .nan) : fpSub fp f u v = .nan :=
  fpAdd_nan fp f (h.imp_right fun hv => congrArg fpNeg hv)

theorem fpMul_nan {u v : FpVal} (h : u = .nan ∨ v = .nan) : fpMul fp f u v = .nan := by
  obtain rfl | rfl := h
  · rfl
  · cases u <;> rfl

theorem fpDiv_nan {u v : FpVal} (h : u = .nan ∨ v = .nan) : fpDiv fp f u v = .nan := by
  obtain rfl | rfl := h
  · rfl
  · cases u <;> rfl

theorem fpFma_nan {u v r : FpVal} (h : u = .nan ∨ v = .nan ∨ r = .nan) : fpFma fp f u v r = .nan := by
  obtain rfl | rfl | rfl := h
  · rfl
  · cases u <;> rfl
  · cases u <;> cases v <;> rfl

/-- The value has the sign `s` and is not 0: an infinity, or a finite number with a significand. -/
def NonzeroOfSign (s : Bool) (v : FpVal) : Prop := v = .inf s ∨ ∃ m e, m ≠ 0 ∧ v = .fin s m e

theorem fpMul_inf_left {s : Bool} {v : FpVal} (p : Bool) (h : NonzeroOfSign s v) :
    fpMul fp f (.inf p) v = packInf f (p != s) := by
  obtain rfl | ⟨m, e, hm, rfl⟩ := h
  · rfl
  · exact if_neg hm

theorem fpMul_inf_right {s : Bool} {v : FpVal} (p : Bool) (h : NonzeroOfSign s v) :
    fpMul fp f v (.inf p) = packInf f (p != s) := by
  rw [bne_comm]
  obtain rfl | ⟨m, e, hm, rfl⟩ := h
  · rfl
  · exact if_neg hm

theorem fpFma_inf_left {s : Bool} {v r : FpVal} (p : Bool) (h : NonzeroOfSign s v) (hr : r ≠ .nan) :
    fpFma fp f (.inf p) v r = fpFma.infPlus f (p != s) r := by
  obtain rfl | ⟨m, e, hm, rfl⟩ := h
  · cases r with
    | nan => exact absurd rfl hr
    | inf | fin => rfl
  · cases r with
    | nan => exact absurd rfl hr
    | inf | fin => exact if_neg hm

theorem fpFma_inf_right {s : Bool} {v r : FpVal} (p : Bool) (h : NonzeroOfSign s v) (hr : r ≠ .nan) :
    fpFma fp f v (.inf p) r = fpFma.infPlus f (p != s) r := by
  rw [bne_comm]
  obtain rfl | ⟨m, e, hm, rfl⟩ := h
  · cases r with
    | nan => exact absurd rfl hr
    | inf | fin => rfl
  · cases r with
    | nan => exact absurd rfl hr
    | inf | fin => exact if_neg hm

end

-- Results

section
variable {f : Format} {w : Nat} {r : FpResult} {v : BitVec w} (hf : f.Wide) (hw : w = f.expBits + f.fracBits + 1)
include hw

theorem IsResult.inf (h : IsResult f r v) {neg : Bool} (hr : r = packInf f neg) : isInf f neg v.toNat :=
  h.of_yields hw (hr ▸ yields_withSign neg (infBits_lt f) (unpack_withSign_infBits f neg))

include hf

theorem IsResult.zero (h : IsResult f r v) {neg : Bool} (hr : r = .bits (withSign f neg 0)) : isZero f neg v.toNat :=
  h.of_yields hw (hr ▸ yields_withSign neg (by positivity) (isZero_withSign hf neg))

end

-- The arithmetic of a format

section
variable {fp : FpRecord} {f : Format} {w : Nat} {add sub mul div : BitVec w → BitVec w → BitVec w}
  {fma : BitVec w → BitVec w → BitVec w → BitVec w} {seen : BitVec w → BitVec w}

/-- A finite operand keeps its sign. -/
theorem exists_operand_of_finiteValue (hw : w = f.expBits + f.fracBits + 1) {b : BitVec w} {y : ℚ}
    (h : finiteValue f b.toNat = some y) : ∃ m e, operand fp f b.toNat = .fin b.msb m e := by
  obtain ⟨m, e, hb, -⟩ := unpack_of_finiteValue h
  obtain ⟨m', hop⟩ := operand_of_fin (fp := fp) hb
  exact ⟨m', e, by rw [hop, signOf_toNat hw]⟩

/-- A finite operand has the sign of its pattern, whether flushed or not. -/
theorem sign_of_operand (hw : w = f.expBits + f.fracBits + 1) {b : BitVec w} {s : Bool} {m : Nat} {e : Int}
    (h : operand fp f b.toNat = .fin s m e) : s = b.msb := by
  rw [← signOf_toNat hw]
  rcases Nat.lt_or_ge (magOf f b.toNat) (infBits f) with hfin | hinf
  · obtain ⟨m', hop⟩ := operand_of_fin (fp := fp) (unpack_of_finite hfin)
    rw [hop] at h
    exact (FpVal.fin.inj h).1.symm
  · rw [operand_of_infinite hinf, unpack_of_infinite hinf] at h
    split at h <;> cases h

/-- An operand that the functions see as a number other than 0. -/
theorem nonzeroOfSign_of_seen (hw : w = f.expBits + f.fracBits + 1)
    (hseen : ∀ a, operand fp f a.toNat = unpack f (seen a).toNat)
    {b : BitVec w} (h : (∃ q, isInf f q b.toNat) ∨ ∃ y, finiteValue f (seen b).toNat = some y ∧ y ≠ 0) :
    NonzeroOfSign b.msb (operand fp f b.toNat) := by
  obtain ⟨q, hq⟩ | ⟨y, hy, hne⟩ := h
  · left
    rw [operand_of_inf hq, ← signOf_toNat hw, (isInf_iff.mp hq).2]
  · right
    obtain ⟨m, e, hb, rfl⟩ := unpack_of_finiteValue hy
    have hop := (hseen b).trans hb
    exact ⟨m, e, fun hm => hne (ratOf_eq_zero_iff.mpr hm), by rw [hop, sign_of_operand hw hop]⟩

variable (A : Arithmetic fp f add sub mul div fma)
include A

theorem Arithmetic.nan_operands (a b : BitVec w) (h : isNan f a.toNat ∨ isNan f b.toNat) :
    isNan f (add a b).toNat ∧ isNan f (sub a b).toNat ∧ isNan f (mul a b).toNat ∧ isNan f (div a b).toNat :=
  have hop := h.imp (operand_of_nan (fp := fp)) (operand_of_nan (fp := fp))
  ⟨(A.add a b).nan (fpAdd_nan fp f hop), (A.sub a b).nan (fpSub_nan fp f hop), (A.mul a b).nan (fpMul_nan fp f hop),
    (A.div a b).nan (fpDiv_nan fp f hop)⟩

theorem Arithmetic.fma_nan_operands (a b c : BitVec w) (h : isNan f a.toNat ∨ isNan f b.toNat ∨ isNan f c.toNat) :
    isNan f (fma a b c).toNat :=
  have nan {a : BitVec w} (ha : isNan f a.toNat) := operand_of_nan (fp := fp) ha
  (A.fma a b c).nan (fpFma_nan fp f (h.imp nan (Or.imp nan nan)))

theorem Arithmetic.inf_inf (a b : BitVec w) (p q : Bool) (ha : isInf f p a.toNat) (hb : isInf f q b.toNat) :
    (p ≠ q → isNan f (add a b).toNat ∧ isInf f p (sub a b).toNat) ∧
    (p = q → isInf f p (add a b).toNat ∧ isNan f (sub a b).toNat) ∧
    isInf f (p != q) (mul a b).toNat ∧ isNan f (div a b).toNat := by
  obtain ⟨-, hw, hadd, hsub, hmul, hdiv, -⟩ := A
  specialize hadd a b
  specialize hsub a b
  specialize hmul a b
  specialize hdiv a b
  rw [operand_of_inf ha, operand_of_inf hb] at hadd hsub hmul hdiv
  refine ⟨fun hne => ⟨hadd.nan ?_, hsub.inf hw ?_⟩, fun heq => ⟨hadd.inf hw ?_, hsub.nan ?_⟩, hmul.inf hw rfl,
    hdiv.nan rfl⟩
  · simp [fpAdd, hne]
  · simp [fpSub, fpNeg, fpAdd, Bool.eq_not.mpr hne]
  · simp [fpAdd, heq]
  · simp [fpSub, fpNeg, fpAdd, heq]

theorem Arithmetic.inf_finite (a b : BitVec w) (p : Bool) (y : ℚ) (ha : isInf f p a.toNat)
    (hb : finiteValue f b.toNat = some y) :
    isInf f p (add a b).toNat ∧ isInf f p (add b a).toNat ∧ isInf f p (sub a b).toNat ∧ isInf f (!p) (sub b a).toNat ∧
    isInf f (p != b.msb) (div a b).toNat ∧ isZero f (p != b.msb) (div b a).toNat := by
  obtain ⟨hf, hw, hadd, hsub, -, hdiv, -⟩ := A
  have ha' := operand_of_inf (fp := fp) ha
  obtain ⟨m, e, hb'⟩ := exists_operand_of_finiteValue (fp := fp) hw hb
  refine ⟨(hadd a b).inf hw ?_, (hadd b a).inf hw ?_, (hsub a b).inf hw ?_, (hsub b a).inf hw ?_, (hdiv a b).inf hw ?_,
    (hdiv b a).zero hf hw ?_⟩ <;> rw [ha', hb']
  case refine_6 => rw [bne_comm]; rfl
  all_goals rfl

theorem Arithmetic.mul_inf (hseen : ∀ a, operand fp f a.toNat = unpack f (seen a).toNat) (a b : BitVec w) (p : Bool) (y : ℚ)
    (ha : isInf f p a.toNat) (hb : finiteValue f (seen b).toNat = some y) (hy : y ≠ 0) :
    isInf f (p != b.msb) (mul a b).toNat ∧ isInf f (p != b.msb) (mul b a).toNat := by
  have hb' := nonzeroOfSign_of_seen A.width hseen (.inr ⟨y, hb, hy⟩)
  refine ⟨(A.mul a b).inf A.width ?_, (A.mul b a).inf A.width ?_⟩ <;> rw [operand_of_inf ha]
  · exact fpMul_inf_left fp f p hb'
  · exact fpMul_inf_right fp f p hb'

theorem Arithmetic.zero_times_inf (hseen : ∀ a, operand fp f a.toNat = unpack f (seen a).toNat) (a b : BitVec w) (p q : Bool)
    (ha : isZero f p (seen a).toNat) (hb : isInf f q b.toNat) :
    isNan f (mul a b).toNat ∧ isNan f (mul b a).toNat ∧ ∀ c, isNan f (fma a b c).toNat ∧ isNan f (fma b a c).toNat := by
  obtain ⟨e, ha⟩ := ha
  have hleft (r : FpVal) : fpFma fp f (.fin p 0 e) (.inf q) r = .nan := by cases r <;> rfl
  have hright (r : FpVal) : fpFma fp f (.inf q) (.fin p 0 e) r = .nan := by cases r <;> rfl
  refine ⟨(A.mul a b).nan ?_, (A.mul b a).nan ?_, fun c => ⟨(A.fma a b c).nan ?_, (A.fma b a c).nan ?_⟩⟩ <;>
    rw [(hseen a).trans ha, operand_of_inf hb]
  · rfl
  · rfl
  · exact hleft _
  · exact hright _

theorem Arithmetic.fma_infinite_product (hseen : ∀ a, operand fp f a.toNat = unpack f (seen a).toNat) (a b c : BitVec w)
    (p : Bool) (ha : isInf f p a.toNat)
    (hb : (∃ q, isInf f q b.toNat) ∨ ∃ y, finiteValue f (seen b).toNat = some y ∧ y ≠ 0) :
    ((∃ z, finiteValue f c.toNat = some z) ∨ isInf f (p != b.msb) c.toNat →
      isInf f (p != b.msb) (fma a b c).toNat ∧ isInf f (p != b.msb) (fma b a c).toNat) ∧
    (isInf f (!(p != b.msb)) c.toNat → isNan f (fma a b c).toNat ∧ isNan f (fma b a c).toNat) := by
  obtain ⟨-, hw, -, -, -, -, hfma⟩ := A
  have hb' := nonzeroOfSign_of_seen hw hseen hb
  have hleft := hfma a b c
  have hright := hfma b a c
  rw [operand_of_inf ha] at hleft hright
  refine ⟨fun hc => ?_, fun hc => ?_⟩
  · have hplus : operand fp f c.toNat ≠ .nan ∧
        fpFma.infPlus f (p != b.msb) (operand fp f c.toNat) = packInf f (p != b.msb) := by
      obtain ⟨z, hz⟩ | hc := hc
      · obtain ⟨m, e, hc⟩ := exists_operand_of_finiteValue (fp := fp) hw hz
        rw [hc]
        exact ⟨nofun, rfl⟩
      · rw [operand_of_inf hc]
        exact ⟨nofun, if_pos (beq_self_eq_true _)⟩
    obtain ⟨hne, hplus⟩ := hplus
    rw [fpFma_inf_left fp f p hb' hne, hplus] at hleft
    rw [fpFma_inf_right fp f p hb' hne, hplus] at hright
    exact ⟨hleft.inf hw rfl, hright.inf hw rfl⟩
  · have hcancel : fpFma.infPlus f (p != b.msb) (.inf (!(p != b.msb))) = .nan := if_neg (by simp)
    rw [operand_of_inf hc] at hleft hright
    have hne : FpVal.inf (!(p != b.msb)) ≠ .nan := nofun
    rw [fpFma_inf_left fp f p hb' hne, hcancel] at hleft
    rw [fpFma_inf_right fp f p hb' hne, hcancel] at hright
    exact ⟨hleft.nan rfl, hright.nan rfl⟩

theorem Arithmetic.fma_infinite_summand (a b c : BitVec w) (x y : ℚ) (p : Bool) (ha : finiteValue f a.toNat = some x)
    (hb : finiteValue f b.toNat = some y) (hc : isInf f p c.toNat) : isInf f p (fma a b c).toNat := by
  obtain ⟨m, e, ha⟩ := exists_operand_of_finiteValue (fp := fp) A.width ha
  obtain ⟨m', e', hb⟩ := exists_operand_of_finiteValue (fp := fp) A.width hb
  refine (A.fma a b c).inf A.width ?_
  rw [ha, hb, operand_of_inf hc]
  rfl

theorem Arithmetic.div_zero (hseen : ∀ a, operand fp f a.toNat = unpack f (seen a).toNat) (a b : BitVec w) (p q : Bool)
    (hb : isZero f q (seen b).toNat) :
    (isZero f p (seen a).toNat → isNan f (div a b).toNat) ∧
    (∀ m e, m ≠ 0 → unpack f (seen a).toNat = .fin p m e → isInf f (p != q) (div a b).toNat) := by
  obtain ⟨e, hb⟩ := hb
  have hdiv := A.div a b
  rw [(hseen b).trans hb, hseen a] at hdiv
  refine ⟨fun ⟨e', ha⟩ => hdiv.nan ?_, fun m e' hm ha => hdiv.inf A.width ?_⟩ <;> rw [ha]
  · rfl
  · exact if_neg hm

end

-- Conversions (R242, R245, R248 to R251)

section
variable {fp : FpRecord} {src dst : Format} {w w' : Nat} {a : BitVec w} {v : BitVec w'}

theorem convert_nan (hv : IsResult dst (fpConvert fp dst (operand fp src a.toNat)) v) (ha : isNan src a.toNat) :
    isNan dst v.toNat :=
  hv.nan (by rw [operand_of_nan ha]; rfl)

theorem convert_zero_inf (hdst : dst.Wide) (hw' : w' = dst.expBits + dst.fracBits + 1)
    (hv : IsResult dst (fpConvert fp dst (operand fp src a.toNat)) v) (p : Bool) :
    (isZero src p a.toNat → isZero dst p v.toNat) ∧ (isInf src p a.toNat → isInf dst p v.toNat) := by
  refine ⟨fun ⟨e, ha⟩ => hv.zero hdst hw' ?_, fun ha => hv.inf hw' ?_⟩
  · have hop : operand fp src a.toNat = .fin p 0 e := by simp [operand, ha]
    rw [hop]
    rfl
  · rw [operand_of_inf ha]
    rfl

end

/-- Settles O58: the functions case by case on their values, in both formats, and the rounding of a conversion to an integer is
the only one. -/
theorem specialOperands : Obligations.SpecialOperands := fun fp hieee =>
  have S := arithmetic_single hieee
  have D := arithmetic_double hieee
  have seenS := operand_eq_unpack_seen32 fp
  have seenD := operand_eq_unpack_seen64 fp
  ⟨S.nan_operands, S.fma_nan_operands, S.inf_inf, S.inf_finite, S.mul_inf seenS, S.zero_times_inf seenS,
    S.fma_infinite_product seenS, S.fma_infinite_summand, S.div_zero seenS,
    D.nan_operands, D.fma_nan_operands, D.inf_inf, D.inf_finite, D.mul_inf seenD, D.zero_times_inf seenD,
    D.fma_infinite_product seenD, D.fma_infinite_summand, D.div_zero seenD,
    fun a => convert_nan (cvtSD_isResult hieee a), fun a => convert_nan (cvtDS_isResult hieee a),
    fun a => convert_zero_inf single_wide rfl (cvtSD_isResult hieee a),
    fun a => convert_zero_inf double_wide rfl (cvtDS_isResult hieee a),
    fun a _ _ _ _ => convertToInt_inRange (w := 32) hieee (by decide) _ _ (seenS a),
    fun a _ _ _ _ => convertToInt_inRange (w := 32) hieee (by decide) _ _ (seenD a),
    fun a _ _ _ _ => convertToInt_inRange (w := 64) hieee (by decide) _ _ (seenS a),
    fun a _ _ _ _ => convertToInt_inRange (w := 64) hieee (by decide) _ _ (seenD a)⟩

end Sys2Proof.Machine
end

section
/-! SUPPORT. The record with flush against the record without it (spec/47_floating_point.md R222; log 7, log 8). -/

namespace Sys2Proof.Machine

/-- The record with the same functions and modes but without flush. -/
abbrev withoutFlush (fp : FpRecord) : FpRecord := { fp with flush := false }

-- Flushed results on values

/-- The result `r` is `r0` with a denormal replaced by the zero of its sign. -/
def FlushOf (f : Format) (r r0 : FpResult) : Prop :=
  (r0 = .nan ∧ r = .nan) ∨ ∃ neg mag, mag ≤ infBits f ∧ r0 = .bits (withSign f neg mag) ∧
    r = .bits (withSign f neg (flushMag true f mag))

theorem flushMag_of_ge {f : Format} {mag : Nat} (flush : Bool) (h : 2 ^ f.fracBits ≤ mag) : flushMag flush f mag = mag := by
  rw [flushMag, decide_eq_false (Nat.not_lt.mpr h), Bool.and_false, if_neg Bool.false_ne_true]

theorem flushMag_false (f : Format) (mag : Nat) : flushMag false f mag = mag := if_neg Bool.false_ne_true

theorem flushMag_zero (flush : Bool) (f : Format) : flushMag flush f 0 = 0 := ite_self 0

theorem flushOf_nan (f : Format) : FlushOf f .nan .nan := .inl ⟨rfl, rfl⟩

theorem flushOf_zero (f : Format) (neg : Bool) : FlushOf f (.bits (withSign f neg 0)) (.bits (withSign f neg 0)) :=
  .inr ⟨neg, 0, Nat.zero_le _, rfl, by rw [flushMag_zero]⟩

theorem flushOf_inf {f : Format} (hf : f.Wide) (neg : Bool) : FlushOf f (packInf f neg) (packInf f neg) :=
  .inr ⟨neg, infBits f, le_rfl, rfl, by rw [flushMag_of_ge true (two_pow_fracBits_le_infBits hf)]; rfl⟩

/-- An infinite product gives a NaN or an infinity, which flush leaves. -/
theorem flushOf_infPlus {f : Format} (hf : f.Wide) (neg : Bool) (r : FpVal) :
    FlushOf f (fpFma.infPlus f neg r) (fpFma.infPlus f neg r) := by
  cases r with
  | inf c =>
    simp only [fpFma.infPlus]
    split
    · exact flushOf_inf hf neg
    · exact flushOf_nan f
  | nan | fin => exact flushOf_inf hf neg

/-- An infinite product with a factor that may be 0. -/
theorem flushOf_ite_infPlus {f : Format} (hf : f.Wide) (zero : Prop) [Decidable zero] (neg : Bool) (r : FpVal) :
    FlushOf f (if zero then .nan else fpFma.infPlus f neg r) (if zero then .nan else fpFma.infPlus f neg r) := by
  split
  · exact flushOf_nan f
  · exact flushOf_infPlus hf neg r

section
variable {fp : FpRecord} {f : Format} (hflush : fp.flush = true)
include hflush

theorem flushOf_roundTo (neg : Bool) (n d : Nat) (e : Int) :
    FlushOf f (.bits (roundTo fp f neg n d e)) (.bits (roundTo (withoutFlush fp) f neg n d e)) :=
  .inr ⟨neg, clampMag fp.rm f neg (roundedMag fp.rm f neg n d e), clampMag_le f _ _ _,
    by rw [roundTo_eq, flushMag_false], by rw [roundTo_eq, hflush]⟩

theorem flushOf_packFin (neg : Bool) (m : Nat) (e : Int) :
    FlushOf f (packFin fp f neg m e) (packFin (withoutFlush fp) f neg m e) := by
  rw [packFin, packFin]
  split
  · exact flushOf_zero f neg
  · exact flushOf_roundTo hflush neg m 1 e

theorem flushOf_addFin (n1 : Bool) (m1 : Nat) (e1 : Int) (n2 : Bool) (m2 : Nat) (e2 : Int) :
    FlushOf f (addFin fp f n1 m1 e1 n2 m2 e2) (addFin (withoutFlush fp) f n1 m1 e1 n2 m2 e2) := by
  rw [addFin, addFin]
  split
  · exact flushOf_zero f _
  · exact flushOf_packFin hflush _ _ _

variable (hf : f.Wide)
include hf

theorem flushOf_fpAdd (u v : FpVal) : FlushOf f (fpAdd fp f u v) (fpAdd (withoutFlush fp) f u v) := by
  cases u with
  | nan => exact flushOf_nan f
  | inf a => cases v with
    | nan => exact flushOf_nan f
    | inf b =>
      simp only [fpAdd]
      split
      · exact flushOf_inf hf a
      · exact flushOf_nan f
    | fin => exact flushOf_inf hf a
  | fin => cases v with
    | nan => exact flushOf_nan f
    | inf b => exact flushOf_inf hf b
    | fin => exact flushOf_addFin hflush ..

theorem flushOf_fpSub (u v : FpVal) : FlushOf f (fpSub fp f u v) (fpSub (withoutFlush fp) f u v) :=
  flushOf_fpAdd hflush hf u (fpNeg v)

theorem flushOf_fpMul (u v : FpVal) : FlushOf f (fpMul fp f u v) (fpMul (withoutFlush fp) f u v) := by
  cases u with
  | nan => exact flushOf_nan f
  | inf a => cases v with
    | nan => exact flushOf_nan f
    | inf b => exact flushOf_inf hf _
    | fin =>
      simp only [fpMul]
      split
      · exact flushOf_nan f
      · exact flushOf_inf hf _
  | fin => cases v with
    | nan => exact flushOf_nan f
    | inf b =>
      simp only [fpMul]
      split
      · exact flushOf_nan f
      · exact flushOf_inf hf _
    | fin => exact flushOf_packFin hflush ..

theorem flushOf_fpDiv (u v : FpVal) : FlushOf f (fpDiv fp f u v) (fpDiv (withoutFlush fp) f u v) := by
  cases u with
  | nan => exact flushOf_nan f
  | inf a => cases v with
    | nan => exact flushOf_nan f
    | inf b => exact flushOf_nan f
    | fin => exact flushOf_inf hf _
  | fin => cases v with
    | nan => exact flushOf_nan f
    | inf b => exact flushOf_zero f _
    | fin =>
      simp only [fpDiv]
      split
      · split
        · exact flushOf_nan f
        · exact flushOf_inf hf _
      · split
        · exact flushOf_zero f _
        · exact flushOf_roundTo hflush ..

theorem flushOf_fpFma (u v r : FpVal) : FlushOf f (fpFma fp f u v r) (fpFma (withoutFlush fp) f u v r) := by
  cases u with
  | nan => exact flushOf_nan f
  | inf a => cases v with
    | nan => exact flushOf_nan f
    | inf b => cases r with
      | nan => exact flushOf_nan f
      | inf c => exact flushOf_infPlus hf (a != b) (.inf c)
      | fin n m e => exact flushOf_infPlus hf (a != b) (.fin n m e)
    | fin n m => cases r with
      | nan => exact flushOf_nan f
      | inf | fin => exact flushOf_ite_infPlus hf (m = 0) _ _
  | fin n m => cases v with
    | nan => exact flushOf_nan f
    | inf b => cases r with
      | nan => exact flushOf_nan f
      | inf | fin => exact flushOf_ite_infPlus hf (m = 0) _ _
    | fin => cases r with
      | nan => exact flushOf_nan f
      | inf c => exact flushOf_inf hf c
      | fin => exact flushOf_addFin hflush ..

theorem flushOf_fpConvert (u : FpVal) : FlushOf f (fpConvert fp f u) (fpConvert (withoutFlush fp) f u) := by
  cases u with
  | nan => exact flushOf_nan f
  | inf a => exact flushOf_inf hf a
  | fin => exact flushOf_packFin hflush ..

end

-- Flushed patterns

theorem IsResult.flushOf {f : Format} {w : Nat} (hw : w = f.expBits + f.fracBits + 1) {r r0 : FpResult} {v v0 : BitVec w}
    (hv : IsResult f r v) (hv0 : IsResult f r0 v0) (h : FlushOf f r r0) :
    (isNan f v0.toNat → isNan f v.toNat) ∧
    (¬isNan f v0.toNat → v.toNat = withSign f (signOf f v0.toNat) (flushMag true f (magOf f v0.toNat))) := by
  obtain ⟨hr0, hr⟩ | ⟨neg, mag, hle, hr0, hr⟩ := h
  · exact ⟨fun _ => hv.nan hr, fun hn => absurd (hv0.nan hr0) hn⟩
  · have hlt := hle.trans_lt (infBits_lt f)
    have hbits := hv.bits _ (hw ▸ withSign_lt neg ((flushMag_le true f mag).trans_lt hlt)) hr
    have hbits0 := hv0.bits _ (hw ▸ withSign_lt neg hlt) hr0
    rw [isNan_iff, hbits0, magOf_withSign neg hlt, signOf_withSign neg hlt]
    exact ⟨fun hn => absurd hle (Nat.not_le.mpr hn), fun _ => hbits⟩

theorem isFlushed32_of_flushOf {r r0 : FpResult} {v v0 : BitVec 32} (hv : IsResult single r v) (hv0 : IsResult single r0 v0)
    (h : FlushOf single r r0) : IsFlushed32 v v0 :=
  (hv.flushOf rfl hv0 h).imp_right fun hbits hn => BitVec.eq_of_toNat_eq ((hbits hn).trans (toNat_flushed32 v0).symm)

theorem isFlushed64_of_flushOf {r r0 : FpResult} {v v0 : Word} (hv : IsResult double r v) (hv0 : IsResult double r0 v0)
    (h : FlushOf double r r0) : IsFlushed64 v v0 :=
  (hv.flushOf rfl hv0 h).imp_right fun hbits hn => BitVec.eq_of_toNat_eq ((hbits hn).trans (toNat_flushed64 v0).symm)

/-- The record without flush reads the flushed pattern as the record with flush reads the pattern. -/
theorem operand_kept_seen32 (fp : FpRecord) (a : BitVec 32) :
    operand (withoutFlush fp) single (seen32 fp a).toNat = operand fp single a.toNat :=
  (operand_of_not_flush rfl _ _).trans (operand_eq_unpack_seen32 fp a).symm

theorem operand_kept_seen64 (fp : FpRecord) (a : Word) :
    operand (withoutFlush fp) double (seen64 fp a).toNat = operand fp double a.toNat :=
  (operand_of_not_flush rfl _ _).trans (operand_eq_unpack_seen64 fp a).symm

theorem Arithmetic.flushes {fp : FpRecord} {f : Format} {w : Nat}
    {add sub mul div add' sub' mul' div' : BitVec w → BitVec w → BitVec w}
    {fma fma' : BitVec w → BitVec w → BitVec w → BitVec w} (A : Arithmetic fp f add sub mul div fma)
    (K : Arithmetic (withoutFlush fp) f add' sub' mul' div' fma') (hflush : fp.flush = true) {seen : BitVec w → BitVec w}
    (hseen : ∀ a, operand (withoutFlush fp) f (seen a).toNat = operand fp f a.toNat)
    {IsFlushed : BitVec w → BitVec w → Prop}
    (of_flushOf : ∀ {r r0 v v0}, IsResult f r v → IsResult f r0 v0 → FlushOf f r r0 → IsFlushed v v0) (a b : BitVec w) :
    IsFlushed (add a b) (add' (seen a) (seen b)) ∧ IsFlushed (sub a b) (sub' (seen a) (seen b)) ∧
    IsFlushed (mul a b) (mul' (seen a) (seen b)) ∧ IsFlushed (div a b) (div' (seen a) (seen b)) ∧
    ∀ c, IsFlushed (fma a b c) (fma' (seen a) (seen b) (seen c)) := by
  obtain ⟨hf, -, hadd, hsub, hmul, hdiv, hfma⟩ := A
  obtain ⟨-, -, hadd', hsub', hmul', hdiv', hfma'⟩ := K
  refine ⟨of_flushOf (hadd a b) (hadd' _ _) ?_, of_flushOf (hsub a b) (hsub' _ _) ?_, of_flushOf (hmul a b) (hmul' _ _) ?_,
    of_flushOf (hdiv a b) (hdiv' _ _) ?_, fun c => of_flushOf (hfma a b c) (hfma' _ _ _) ?_⟩ <;> simp only [hseen]
  · exact flushOf_fpAdd hflush hf _ _
  · exact flushOf_fpSub hflush hf _ _
  · exact flushOf_fpMul hflush hf _ _
  · exact flushOf_fpDiv hflush hf _ _
  · exact flushOf_fpFma hflush hf _ _ _

-- Conversions from integers give no denormal (R243, R244, R246, R247)

theorem floorLog2_one_nonneg {n : Nat} (hn : 0 < n) : 0 ≤ floorLog2 n 1 := by
  obtain ⟨-, hlt⟩ := floorLog2_spec hn one_pos
  rw [Nat.cast_one, div_one] at hlt
  have hone : (1 : ℚ) < (2 : ℚ) ^ (floorLog2 n 1 + 1) := lt_of_le_of_lt (by exact_mod_cast hn) hlt
  have := (one_lt_zpow_iff_right₀ one_lt_two).mp hone
  omega

/-- An integer other than 0 is rounded to a normal number or an overflow. -/
theorem two_pow_fracBits_le_clampMag {f : Format} (hf : f.Wide) (hmin : minExp f < 0) (rm : RoundMode) (neg : Bool) {n : Nat}
    (hn : 0 < n) : 2 ^ f.fracBits ≤ clampMag rm f neg (roundedMag rm f neg n 1 0) := by
  have hmag : 2 ^ f.fracBits ≤ roundedMag rm f neg n 1 0 := by
    have hfloor := floorLog2_one_nonneg hn
    have htop : 0 < (topPlace f n 1 0 - minExp f).toNat := by rw [topPlace]; omega
    exact (Nat.le_mul_of_pos_left _ htop).trans (Nat.le_add_right _ _)
  have hmax : 2 ^ f.fracBits ≤ maxFinite f := by
    have hthree : 3 * 2 ^ f.fracBits ≤ infBits f :=
      Nat.mul_le_mul_right _ (Nat.le_sub_one_of_lt (Nat.pow_le_pow_right two_pos hf.1))
    have hpos : 0 < 2 ^ f.fracBits := by positivity
    rw [maxFinite]
    omega
  have hinf := maxFinite_add_one hf
  rw [clampMag, overflowBits_eq]
  split
  · split <;> omega
  · exact hmag

theorem fpOfInt_flush {fp : FpRecord} {f : Format} (hf : f.Wide) (hmin : minExp f < 0) (z : Int) :
    ∃ n, fpOfInt fp f z = .bits n ∧ fpOfInt (withoutFlush fp) f z = .bits n := by
  rw [fpOfInt, fpOfInt, packFin, packFin]
  split
  case isTrue => exact ⟨_, rfl, rfl⟩
  case isFalse hz =>
    refine ⟨_, rfl, ?_⟩
    rw [roundTo_eq, roundTo_eq, flushMag_false,
      flushMag_of_ge _ (two_pow_fracBits_le_clampMag hf hmin fp.rm _ (Nat.pos_of_ne_zero hz))]

/-- Settles O59: on values flush replaces a denormal result and nothing else, and the operands are those of the flushed
patterns. -/
theorem flushReplacesDenormals : Obligations.FlushReplacesDenormals := by
  rintro fp _ hieee hflush rfl
  have ofInt32 (op : FpOp) (args : List Word) (z : Int) :
      result32 fp op args (fpOfInt fp single z) = result32 (withoutFlush fp) op args (fpOfInt (withoutFlush fp) single z) := by
    obtain ⟨n, hr, hr0⟩ := fpOfInt_flush (fp := fp) single_wide (by decide) z
    rw [hr, hr0, result32_bits hieee, result32_bits (fp := withoutFlush fp) hieee]
  have ofInt64 (op : FpOp) (args : List Word) (z : Int) :
      result64 fp op args (fpOfInt fp double z) = result64 (withoutFlush fp) op args (fpOfInt (withoutFlush fp) double z) := by
    obtain ⟨n, hr, hr0⟩ := fpOfInt_flush (fp := fp) double_wide (by decide) z
    rw [hr, hr0, result64_bits hieee, result64_bits (fp := withoutFlush fp) hieee]
  refine ⟨(arithmetic_single hieee).flushes (arithmetic_single hieee) hflush (operand_kept_seen32 fp) isFlushed32_of_flushOf,
    (arithmetic_double hieee).flushes (arithmetic_double hieee) hflush (operand_kept_seen64 fp) isFlushed64_of_flushOf,
    fun a => isFlushed32_of_flushOf (cvtSD_isResult hieee a) (cvtSD_isResult (fp := withoutFlush fp) hieee _) ?_,
    fun a => isFlushed64_of_flushOf (cvtDS_isResult hieee a) (cvtDS_isResult (fp := withoutFlush fp) hieee _) ?_,
    fun a => ⟨ofInt32 _ _ _, ofInt64 _ _ _⟩, fun a => ⟨ofInt32 _ _ _, ofInt64 _ _ _⟩⟩
  · rw [operand_kept_seen64]
    exact flushOf_fpConvert hflush single_wide _
  · rw [operand_kept_seen32]
    exact flushOf_fpConvert hflush double_wide _

end Sys2Proof.Machine
end

section
/-! SUPPORT. What User mode cannot see (spec/10_state.md R40, spec/42_special_move.md R160): a User-mode step comes to the same after
`hideC0`. Every operation commutes with it but the taking of an exception, which records no more than `hideC0` blots out. -/

namespace Sys2Proof.Machine

-- `hideC0` on the state

@[simp] theorem hideC0_delay (s : State) : (hideC0 s).delay = s.delay := rfl
@[simp] theorem hideC0_params (s : State) : (hideC0 s).params = s.params := rfl
@[simp] theorem hideC0_pc (s : State) : (hideC0 s).pc = s.pc := rfl
@[simp] theorem textAt_hideC0 (s : State) (a : Word) : textAt (hideC0 s) a = textAt s a := rfl
@[simp] theorem readBytes_hideC0 (s : State) (a : Word) (k : Nat) : readBytes (hideC0 s) a k = readBytes s a k := rfl

theorem hideC0_hideC0 (s : State) : hideC0 (hideC0 s) = hideC0 s := by
  simp [hideC0, BitVec.and_assoc]

/-- EXL, ERL and KSU are among the Status bits that stay. -/
theorem mode_hideC0 (s : State) : mode (hideC0 s) = mode s := by
  have hx : exl (hideC0 s) = exl s := by simp [exl, hideC0]
  have he : erl (hideC0 s) = erl s := by simp [erl, hideC0]
  have hk : ksu (hideC0 s) = ksu s := by
    refine BitVec.eq_of_getLsbD_eq fun i hi => ?_
    simp only [ksu, hideC0, BitVec.getLsbD_extractLsb', BitVec.getLsbD_and]
    interval_cases i <;> simp
  rw [mode, hx, he, hk, ← mode]

theorem writeGpr_hideC0 (s : State) (r : Reg) (v : Word) : writeGpr (hideC0 s) r v = hideC0 (writeGpr s r v) := by
  unfold writeGpr
  split <;> rfl

theorem afterRead_hideC0 (s : State) (a : Word) (k : Nat) : afterRead (hideC0 s) a k = hideC0 (afterRead s a k) :=
  (apply_ite hideC0 (unwritten s a k = true) (drawn s) s).symm

theorem checkAccess_hideC0 (a : Word) (k : Nat) (bad bus : Exn) (s : State) :
    checkAccess a k bad bus (hideC0 s) = checkAccess a k bad bus s := by
  rw [checkAccess, mode_hideC0]
  rfl

/-- What the handler is entered with is the same but for what is blotted out, EXL being set in both. -/
theorem hideC0_trapEntry (e : Exn) (s : State) : hideC0 (trapEntry e s) = hideC0 (trapEntry e (hideC0 s)) := by
  have hst : setExl s.status &&& 0b11110 = setExl (s.status &&& 0b11110) &&& 0b11110 := by
    refine BitVec.eq_of_getLsbD_eq fun i hi => ?_
    simp only [BitVec.getLsbD_and, getLsbD_setExl _ _ hi]
    cases s.status.getLsbD i <;> cases i == 1 <;> cases (0b11110 : Word).getLsbD i <;> rfl
  cases e <;> simp only [hideC0, trapEntry, hst]

-- Outcomes that are the same but for what is blotted out

theorem next_sameButC0 (t : State) : sameButC0 (.next t) (.next (hideC0 t)) := (hideC0_hideC0 t).symm

theorem ite_sameButC0 {c : Prop} [Decidable c] {a b a' b' : Result} (ha : sameButC0 a a') (hb : sameButC0 b b') :
    sameButC0 (if c then a else b) (if c then a' else b') := by
  split
  · exact ha
  · exact hb

theorem raise_sameButC0 (e : Exn) (s : State) : sameButC0 (raise e s) (raise e (hideC0 s)) :=
  ite_sameButC0 rfl (hideC0_trapEntry e s)

theorem stopWith_sameButC0 (s : State) (x : Stop) : sameButC0 (stopWith s x) (stopWith (hideC0 s) x) := by
  cases x with
  | raise e => exact raise_sameButC0 e s
  | refuse q => rfl

theorem advance_sameButC0 {u v : State} (h : v = hideC0 u) : sameButC0 (advance u) (advance v) := by
  subst h
  rw [advance, advance, hideC0_delay]
  cases u.delay with
  | some d => exact next_sameButC0 { u with pc := d, delay := none }
  | none => exact ite_sameButC0 (next_sameButC0 { u with pc := u.pc + 4, delay := none }) rfl

theorem transfer_sameButC0 {u v : State} (target : Word) (h : v = hideC0 u) :
    sameButC0 (transfer target u) (transfer target v) := by
  subst h
  exact ite_sameButC0 (ite_sameButC0 (next_sameButC0 { u with delay := some target, pc := u.pc + 4 }) rfl)
    (next_sameButC0 { u with pc := target })

theorem notTaken_sameButC0 (s : State) : sameButC0 (notTaken s) (notTaken (hideC0 s)) :=
  ite_sameButC0 (ite_sameButC0 (next_sameButC0 { s with delay := some (s.pc + 8), pc := s.pc + 4 }) rfl)
    (ite_sameButC0 (next_sameButC0 { s with pc := s.pc + 4 }) rfl)

theorem outsideSlot_sameButC0 {s : State} {k k' : Result} (h : sameButC0 k k') :
    sameButC0 (outsideSlot s k) (outsideSlot (hideC0 s) k') :=
  ite_sameButC0 rfl h

theorem branch_sameButC0 (taken : Bool) (offset : Imm) (s : State) :
    sameButC0 (branch taken offset s) (branch taken offset (hideC0 s)) :=
  outsideSlot_sameButC0 (ite_sameButC0 (ite_sameButC0 rfl (transfer_sameButC0 _ rfl)) (notTaken_sameButC0 s))

/-- In User mode an instruction of Kernel mode raises, whatever it would do. -/
theorem kernelOnly_sameButC0 {s : State} (hm : mode s = some .user) (k k' : Result) :
    sameButC0 (kernelOnly s k) (kernelOnly (hideC0 s) k') := by
  rw [kernelOnly, kernelOnly, mode_hideC0, hm]
  exact raise_sameButC0 _ s

theorem load_sameButC0 (a : Word) (size : Size) {write : State → Word → State} (s : State)
    (hw : ∀ u v, write (hideC0 u) v = hideC0 (write u v)) :
    sameButC0 (load a size write s) (load a size write (hideC0 s)) := by
  rw [load, load, memRead, memRead, checkAccess_hideC0, afterRead_hideC0]
  cases checkAccess a (sizeBytes size) (.addressErrorLoad a) (.busErrorData a) s with
  | error x => exact stopWith_sameButC0 s x
  | ok u => exact advance_sameButC0 (hw _ _)

theorem store_sameButC0 (a : Word) (size : Size) (v : Word) (s : State) :
    sameButC0 (store a size v s) (store a size v (hideC0 s)) := by
  cases h : checkAccess a (sizeBytes size) (.addressErrorStore a) (.busErrorData a) s with
  | error x =>
    rw [store_of_check_error v h, store_of_check_error v ((checkAccess_hideC0 ..).trans h)]
    exact stopWith_sameButC0 s x
  | ok u =>
    rw [store_of_accessOk v (checkAccess_ok.mp h),
      store_of_accessOk v (checkAccess_ok.mp ((checkAccess_hideC0 ..).trans h))]
    exact ite_sameButC0 rfl (advance_sameButC0 rfl)

-- Every instruction, and the fetch before it

/-- A fetch leaves the mode: it only draws. -/
theorem mode_of_fetch_ok {s u : State} {i : Instr} (h : fetch s = .ok (i, u)) : mode u = mode s := by
  obtain ⟨-, rfl | rfl⟩ := fetch_ok h <;> rfl

/-- A User-mode instruction comes to the same on the blotted-out state: it reads none of what is blotted out, and the five
instructions of Kernel mode raise. -/
theorem exec_sameButC0 (i : Instr) {s : State} (hm : mode s = some .user) : sameButC0 (exec i s) (exec i (hideC0 s)) := by
  have gpr (r : Reg) (v : Word) : sameButC0 (advance (writeGpr s r v)) (advance (writeGpr (hideC0 s) r v)) :=
    advance_sameButC0 (writeGpr_hideC0 s r v)
  cases i
  case mfc0 | mtc0 | dmfc0 | dmtc0 => exact kernelOnly_sameButC0 hm _ _
  case eret => exact outsideSlot_sameButC0 (kernelOnly_sameButC0 hm _ _)
  case trap => exact raise_sameButC0 _ s
  case lb | lbu | lh | lhu | lw | lwu | ld => exact load_sameButC0 _ _ s fun u _ => writeGpr_hideC0 u _ _
  case lS | lD => exact load_sameButC0 _ _ s fun _ _ => rfl
  case sb | sh | sw | sd | sS | sD => exact store_sameButC0 _ _ _ s
  case j => exact outsideSlot_sameButC0 (ite_sameButC0 rfl (transfer_sameButC0 _ rfl))
  case jr => exact outsideSlot_sameButC0 (transfer_sameButC0 _ rfl)
  case jal | jalr => exact outsideSlot_sameButC0 (ite_sameButC0 rfl (transfer_sameButC0 _ (writeGpr_hideC0 s _ _)))
  case blez | bltz | bgez | bgtz | beq | bne | bc1t | bc1f => exact branch_sameButC0 _ _ s
  case movz rd rs rt | movn rd rs rt =>
    exact advance_sameButC0 ((if_congr Iff.rfl (writeGpr_hideC0 s rd _) rfl).trans (apply_ite hideC0 _ _ s).symm)
  case madd =>
    rw [exec, exec, execMadd, execMadd, hideC0_params]
    cases s.params.maddMode with
    | mips32 => exact ite_sameButC0 (advance_sameButC0 rfl) rfl
    | wide128 => exact advance_sameButC0 rfl
  case ddiv | ddivu => exact ite_sameButC0 (advance_sameButC0 rfl) (advance_sameButC0 rfl)
  case lui | daddu | daddiu | dsubu | mfhi | mflo | mfc1 | dmfc1 | and | or | xor | nor | andi | ori | xori | dsllv |
    dsrlv | dsrav | dsll | dsrl | dsra | slt | sltu | slti | sltiu => exact gpr _ _
  case nop | dmult | dmultu | mthi | mtlo => exact advance_sameButC0 rfl
  case dmtc1 | movD | addD | addPS | subD | subPS | mulD | mulPS | divD | divPS | maddD | maddPS | cvtDS | cvtDW | cvtDL |
    cvtLS | cvtLD | mtc1 | movS | addS | subS | mulS | divS | maddS | cvtSD | cvtSW | cvtSL | cvtWS | cvtWD =>
    exact advance_sameButC0 rfl
  case cLtS | cLeS | cGtS | cGeS | cEqS | cNeS | cLtD | cLeD | cGtD | cGeD | cEqD | cNeD => exact advance_sameButC0 rfl

/-- The fetch reads none of what is blotted out. -/
theorem fetch_hideC0 (s : State) : fetch (hideC0 s) = (fetch s).map (Prod.map id hideC0) := by
  rw [fetch, fetch, checkAccess_hideC0, afterRead_hideC0, textAt_hideC0, readBytes_hideC0, hideC0_pc, hideC0_params]
  cases checkAccess s.pc 4 (.addressErrorLoad s.pc) (.busErrorFetch s.pc) s with
  | error x => rfl
  | ok u =>
    cases textAt s s.pc with
    | none => rfl
    | some slot =>
      obtain ⟨-, _ | i⟩ := slot
      · simp only
        cases decodeBytes s.params.endian (readBytes s s.pc 4) <;> rfl
      · rfl

/-- Settles O19: the end of the run and the fetch look at nothing that is blotted out, and no instruction does in User mode. -/
theorem userModeCannotSeeC0 : Obligations.UserModeCannotSeeC0 := by
  intro s hm
  refine ite_sameButC0 rfl ?_
  rw [fetch_hideC0]
  cases hf : fetch s with
  | error x => exact stopWith_sameButC0 s x
  | ok p => exact exec_sameButC0 p.1 ((mode_of_fetch_ok hf).trans hm)

end Sys2Proof.Machine
end

section
/-! SUPPORT. The special instructions and the exceptions (spec/48_special.md R280 to R282, spec/60_exceptions.md R290 to R299): the
next states of an instruction by whether it raised, returned from an exception or wrote and moved pc, from which every
statement about what is raised and what is left of the c0 registers follows. -/

namespace Sys2Proof.Machine

-- The next states of an instruction

theorem keepsAllBut_of_advance {u t : State} (h : advance u = .next t) : KeepsAllBut [] u t := by
  rw [eq_of_advance h]
  exact keepsAllBut_movePc u _ _

theorem keepsAllBut_of_branch {taken : Bool} {offset : Imm} {s t : State} (h : branch taken offset s = .next t) :
    KeepsAllBut [] s t := by
  obtain ⟨-, ⟨-, -, ht⟩ | ⟨-, ht⟩⟩ := branch_cases h
  · exact keepsAllBut_of_transfer ht
  · exact keepsAllBut_of_notTaken ht

/-- The next states of an instruction. -/
inductive NextShape (i : Instr) (s t : State) : Prop
  /-- An exception was taken. -/
  | raised (e : Exn) (cause : HasCause i s e) (handler : s.params.hostTraps = false) (eq : t = trapEntry e s)
  /-- ERET returned from one. -/
  | returned (isEret : i = .eret) (kernel : mode s = some .kernel) (eq : t = exceptionReturn s)
  /-- The instruction made its writes, and then pc moved. -/
  | wrote (u : State) (writes : WritesOf i s u) (moves : KeepsAllBut [] u t)

theorem nextShape_of_exec {i : Instr} {s t : State} (h : exec i s = .next t) : NextShape i s t := by
  cases exec_shape i s with
  | refused q eq => rw [eq] at h; cases h
  | raised e eq cause =>
    obtain ⟨-, he⟩ | ⟨hh, he⟩ := raise_cases e s <;> rw [eq, he] at h <;> cases h
    exact .raised e cause hh rfl
  | sequential u writes eq => exact .wrote u writes (keepsAllBut_of_advance (eq ▸ h))
  | inSlot eq => rw [eq] at h; cases h
  | returned eq isEret _ kernel =>
    rw [eq] at h
    cases h
    exact .returned isEret kernel rfl
  | jumped u target writes eq => exact .wrote u writes (keepsAllBut_of_transfer (eq ▸ h))
  | branched taken offset eq _ _ case =>
    exact .wrote s (.refl s (kernelInstr_of_branch case)) (keepsAllBut_of_branch (eq ▸ h))

-- The ends of a run (R333)

theorem advance_ne_fault (u : State) (f : Fault) : advance u ≠ .fault f := by
  obtain ⟨-, -, h⟩ | ⟨-, h⟩ := advance_cases u <;> rw [h] <;> nofun

theorem transfer_ne_fault (target : Word) (u : State) (f : Fault) : transfer target u ≠ .fault f := by
  unfold transfer
  split
  · split <;> nofun
  · nofun

theorem notTaken_ne_fault (u : State) (f : Fault) : notTaken u ≠ .fault f := by
  unfold notTaken
  split <;> split <;> nofun

theorem branch_ne_fault (taken : Bool) (offset : Imm) {s : State} (hd : s.delay = none) (f : Fault) :
    branch taken offset s ≠ .fault f := by
  cases taken with
  | false =>
    rw [branch_false hd]
    exact notTaken_ne_fault s f
  | true =>
    rw [branch_true hd]
    split
    · nofun
    · exact transfer_ne_fault _ s f

/-- A raise that ends the run. -/
theorem eq_of_raise_fault {e : Exn} {s : State} {f : Fault} (h : raise e s = .fault f) :
    s.params.hostTraps = true ∧ f = .trapped e s.pc := by
  obtain ⟨hh, he⟩ | ⟨-, he⟩ := raise_cases e s <;> rw [he] at h <;> cases h
  exact ⟨hh, rfl⟩

/-- An instruction ends a run by an exception of its own only. -/
theorem exec_fault {i : Instr} {s : State} {f : Fault} (h : exec i s = .fault f) :
    s.params.hostTraps = true ∧ ∃ e, HasCause i s e ∧ f = .trapped e s.pc := by
  cases exec_shape i s with
  | refused q eq => rw [eq] at h; cases h
  | raised e eq cause =>
    obtain ⟨hh, hf⟩ := eq_of_raise_fault (eq ▸ h)
    exact ⟨hh, e, cause, hf⟩
  | sequential u _ eq => exact absurd (eq ▸ h) (advance_ne_fault u f)
  | inSlot eq => rw [eq] at h; cases h
  | returned eq => rw [eq] at h; cases h
  | jumped u target _ eq => exact absurd (eq ▸ h) (transfer_ne_fault target u f)
  | branched taken offset eq _ noSlot => exact absurd (eq ▸ h) (branch_ne_fault taken offset noSlot f)

-- What is raised, and why (R293, R296)

/-- Settles O21: the two outcomes of `raise` by HOST_TRAPS, with trap entry clause by clause. -/
theorem trapEntryWritesWhatR296Says : Obligations.TrapEntryWritesWhatR296Says := raise_raises

theorem exl_exceptionReturn (s : State) : exl (exceptionReturn s) = false := by
  rw [exl, exceptionReturn, getLsbD_clearExl _ _ (by decide)]
  rfl

theorem WritesOf.noException {i : Instr} {s u t : State} (hw : WritesOf i s u) (hm : KeepsAllBut [] u t) :
    NoException i s t where
  cause := Eq.trans (hm .cause nofun) hw.cause
  badVAddr := Eq.trans (hm .badVAddr nofun) hw.badVAddr
  epc hi := Eq.trans (hm .epc nofun) (hw.c0 hi).2
  exl hi ht := by
    rw [← ht, Machine.exl, Machine.exl, ← (hw.c0 hi).1, ← hm .status nofun]

theorem noException_exceptionReturn (i : Instr) (s : State) : NoException i s (exceptionReturn s) :=
  ⟨rfl, rfl, fun _ => rfl, fun _ h => by rw [exl_exceptionReturn] at h; cases h⟩

/-- Settles O23: what is raised has its cause in the list of outcomes, and neither a write nor ERET records an exception. -/
theorem exceptionsHaveTheirCauses : Obligations.ExceptionsHaveTheirCauses := by
  refine ⟨fun i s e p h => ?_, fun i s t h => ?_⟩
  · obtain ⟨hh, e', cause, hf⟩ := exec_fault h
    cases hf
    exact ⟨hh, rfl, cause⟩
  · cases nextShape_of_exec h with
    | raised e cause handler eq => exact .inl ⟨handler, e, cause, eq ▸ trapEntry_entered e s⟩
    | returned _ _ eq => exact .inr (eq ▸ noException_exceptionReturn i s)
    | wrote u writes moves => exact .inr (writes.noException moves)

/-- The fetch raises the two exceptions of its checks only (R68). -/
theorem eq_of_fetch_raise {s : State} {e : Exn} (h : fetch s = .error (.raise e)) :
    e = .addressErrorLoad s.pc ∨ e = .busErrorFetch s.pc := by
  unfold fetch at h
  cases hc : checkAccess s.pc 4 (.addressErrorLoad s.pc) (.busErrorFetch s.pc) s with
  | error x =>
    rw [hc] at h
    cases h
    obtain ⟨-, hx⟩ | ⟨-, -, hx⟩ | ⟨-, -, -, -, hx⟩ := checkAccess_error hc <;> cases hx
    · exact .inl rfl
    · exact .inr rfl
  | ok u =>
    rw [hc] at h
    simp only at h
    split at h
    · cases h
    · split at h
      · cases h
      · split at h <;> cases h

/-- Settles O22: TRAP has no outcome but the raise, and Table 60-1 gives Trap no cause but TRAP. -/
theorem trapIsTheOnlySourceOfTrap : Obligations.TrapIsTheOnlySourceOfTrap := by
  refine ⟨fun _ => rfl, fun code s hh => ?_, fun code s hh => if_pos hh, fun i s pc h => ?_, fun i s t hi h => ?_,
    fun s h => ?_⟩
  · obtain ⟨t, ht, he⟩ := (raise_raises .trap s).handler hh
    exact ⟨t, ht, he, he.excCode⟩
  · obtain ⟨-, -, cause⟩ := exceptionsHaveTheirCauses.1 i s .trap pc h
    exact cause
  · refine (exceptionsHaveTheirCauses.2 i s t h).imp_left fun ⟨hh, e, cause, he⟩ => ⟨hh, e, ?_, he⟩
    rintro rfl
    obtain ⟨code, rfl⟩ := cause
    exact hi code rfl
  · obtain he | he := eq_of_fetch_raise h <;> cases he

-- User mode (R312)

/-- A draw is no part of what a frame speaks of (log 4). -/
theorem keepsAllBut_drawn (ps : List Part) (s : State) : KeepsAllBut ps s (drawn s) := by
  intro p _
  cases p with
  | gprs | fprs | fccs | mem => exact fun _ => rfl
  | hi | lo | status | cause | epc | badVAddr => rfl
  | run => exact ⟨rfl, rfl⟩

/-- An exception taken after the draw of the fetch is one taken in the state before it. -/
theorem TrapEntered.of_fetch {e : Exn} {i : Instr} {s u t : State} (hf : fetch s = .ok (i, u)) (h : TrapEntered e u t) :
    TrapEntered e s t := by
  obtain ⟨-, rfl | rfl⟩ := fetch_ok hf
  · exact h
  · exact { h with frame := (keepsAllBut_drawn _ s).trans h.frame }

/-- In User mode an instruction leaves the four c0 registers or raises. -/
theorem exec_user {i : Instr} {s t : State} (hm : mode s = some .user) (h : exec i s = .next t) :
    (t.status = s.status ∧ t.cause = s.cause ∧ t.epc = s.epc ∧ t.badVAddr = s.badVAddr) ∨ ∃ e, TrapEntered e s t := by
  cases nextShape_of_exec h with
  | raised e _ _ eq => exact .inr ⟨e, eq ▸ trapEntry_entered e s⟩
  | returned _ kernel => rw [hm] at kernel; cases kernel
  | wrote u writes moves =>
    have hk : kernelInstr i = false := by
      refine Bool.eq_false_iff.mpr fun hk => ?_
      rw [writes.kernel hk] at hm
      cases hm
    obtain ⟨hstatus, hcause, hepc, hbad⟩ := writes.c0_all hk
    exact .inl ⟨Eq.trans (moves .status nofun) hstatus, Eq.trans (moves .cause nofun) hcause,
      Eq.trans (moves .epc nofun) hepc, Eq.trans (moves .badVAddr nofun) hbad⟩

/-- Settles O18: the fetch only draws, and the instruction leaves the c0 registers or raises. -/
theorem userModeLeavesC0Alone : Obligations.UserModeLeavesC0Alone := by
  intro s t hm h
  obtain ⟨-, ⟨i, u, hf, he⟩ | ⟨e, -, -, rfl⟩⟩ := step_next h
  · refine (exec_user ((mode_of_fetch_ok hf).trans hm) he).imp (fun hkept => ?_) fun ⟨e, hent⟩ => ⟨e, hent.of_fetch hf⟩
    have hsame : t.status = s.status ∧ t.cause = s.cause ∧ t.epc = s.epc ∧ t.badVAddr = s.badVAddr := by
      obtain ⟨-, rfl | rfl⟩ := fetch_ok hf <;> exact hkept
    obtain ⟨hstatus, hcause, hepc, hbad⟩ := hsame
    exact ⟨hstatus, hcause, hepc, hbad, (mode_congr hstatus).trans hm⟩
  · exact .inr ⟨e, trapEntry_entered e s⟩

-- NOP and ERET (R281, R282)

/-- Settles O40: NOP writes nothing and advances. -/
theorem nopOnlyAdvances : Obligations.NopOnlyAdvances := fun _ =>
  ⟨rfl, advance_onlyAdvances_of_read (.inl rfl)⟩

/-- In Kernel mode, outside a delay slot, ERET comes to the test of ERL. -/
theorem exec_eret_of_kernel {s : State} (hd : s.delay = none) (hm : mode s = some .kernel) :
    exec .eret s = if erl s then .refused .eretWithErl else .next (exceptionReturn s) :=
  (outsideSlot_of_noSlot hd _).trans (kernelOnly_of_kernel hm _)

theorem erl_exceptionReturn (s : State) : erl (exceptionReturn s) = erl s := by
  rw [erl, exceptionReturn, getLsbD_clearExl _ _ (by decide)]
  rfl

theorem ksu_exceptionReturn (s : State) : ksu (exceptionReturn s) = ksu s := by
  refine BitVec.eq_of_getLsbD_eq fun i hi => ?_
  have hbit : (3 + i != 1) = true := by simp; omega
  simp only [ksu, exceptionReturn, BitVec.getLsbD_extractLsb', getLsbD_clearExl s.status (3 + i) (by omega), hbit, Bool.true_and]

theorem keepsAllBut_exceptionReturn (s : State) : KeepsAllBut [.status] s (exceptionReturn s) := by
  intro p hp
  cases p with
  | status => simp at hp
  | gprs | fprs | fccs | mem => exact fun _ => rfl
  | hi | lo | cause | epc | badVAddr => rfl
  | run => exact ⟨rfl, rfl⟩

/-- Settles O25: the checks of ERET come in their order, and past them EXL is the one Status bit that changes. -/
theorem eretReturnsToEpc : Obligations.EretReturnsToEpc := by
  refine ⟨rfl, fun s => ⟨fun hd => if_pos (Option.isSome_iff_ne_none.mpr hd), fun hd hm => ?_, fun hd hm he => ?_,
    fun hd hm he => ?_⟩⟩
  · exact kernelInstructionsTrapInUserMode .eret s rfl hm fun _ => hd
  · exact (exec_eret_of_kernel hd hm).trans (if_pos he)
  · have hx := exl_exceptionReturn s
    have he' : erl (exceptionReturn s) = false := (erl_exceptionReturn s).trans he
    have hk := ksu_exceptionReturn s
    exact ⟨exceptionReturn s, (exec_eret_of_kernel hd hm).trans (if_neg (Bool.not_eq_true _ ▸ he)), rfl, hd,
      getLsbD_clearExl s.status, fun hu => mode_eq_user_iff.mpr ⟨hx, he', hk.trans hu⟩,
      fun hz => mode_eq_kernel_iff.mpr (.inr (.inr (hk.trans hz))), keepsAllBut_exceptionReturn s⟩

-- An exception and the return from it (R299)

/-- Clearing EXL undoes setting it where it was clear. -/
theorem clearExl_setExl {st : Word} (h : st.getLsbD 1 = false) : clearExl (setExl st) = st := by
  refine BitVec.eq_of_getLsbD_eq fun i hi => ?_
  rw [getLsbD_clearExl _ _ hi, getLsbD_setExl _ _ hi]
  by_cases h1 : i = 1
  · rw [h1, h]
    rfl
  · rw [bne, beq_false_of_ne h1]
    rfl

theorem erl_trapEntry (e : Exn) (s : State) : erl (trapEntry e s) = erl s := by
  rw [erl, trapEntry_status, getLsbD_setExl _ _ (by decide)]
  rfl

/-- Settles O26: ERET undoes of trap entry all but what it records, for EXL was 0. -/
theorem exceptionThenEretReturns : Obligations.ExceptionThenEretReturns := by
  intro e s hx he _ hh
  have hent := trapEntry_entered e s
  have hret : exec .eret (trapEntry e s) = .next (exceptionReturn (trapEntry e s)) :=
    (exec_eret_of_kernel rfl (mode_trapEntry e s)).trans (if_neg (by rw [erl_trapEntry, he]; exact Bool.false_ne_true))
  have hstatus : (exceptionReturn (trapEntry e s)).status = s.status := clearExl_setExl hx
  refine ⟨trapEntry e s, _, if_neg (by rw [hh]; exact Bool.false_ne_true), hret, fun hd => (hent.epcAndBd hx hd).1,
    fun hd => (hent.epcAndBdInSlot hx hd).1, rfl, mode_congr hstatus, fun p hp => ?_⟩
  by_cases hs : p = .status
  · exact hs ▸ hstatus
  · exact (hent.frame p (by simpa [hs] using hp)).trans (keepsAllBut_exceptionReturn _ p (by simpa using hs))

end Sys2Proof.Machine
end

section
/-! SUPPORT. Reset, launch, the exit of a run and the delay slot (spec/70_reset_and_hazards.md R330 to R335). -/

namespace Sys2Proof.Machine

-- Reset (R330)

/-- Settles O14: at reset memory is empty, the storage behind x[0] is 0 and no slot is pending. -/
theorem resetMeetsInvariant : Obligations.ResetMeetsInvariant :=
  have inv (resetPc : Word) (params : Params) : StateInv (State.resetWith resetPc params) :=
    ⟨⟨.nil, nofun⟩, rfl, fun _ => rfl, fun h => absurd rfl h⟩
  ⟨inv _ _, inv⟩

/-- Settles O15: ERL is the one Status bit set, and it alone makes the mode Kernel. -/
theorem resetFixesWhatTheSpecFixes : Obligations.ResetFixesWhatTheSpecFixes :=
  have herl : (0b100 : Word).getLsbD 2 = true := by decide
  ⟨fun _ _ => ⟨rfl, herl, mode_eq_kernel_iff.mpr (.inr (.inl herl)), rfl, rfl⟩, rfl⟩

-- The exit of a run (R333 a)

theorem atEnd_iff {s : State} : atEnd s = true ↔ s.params.endPc = some s.pc ∧ s.delay = none := by
  simp [atEnd]

/-- Settles O11: past the test for the end, a fault is that of an exception. -/
theorem runEndsExactlyAtEndPc : Obligations.RunEndsExactlyAtEndPc := by
  intro s
  rw [← atEnd_iff]
  refine ⟨fun h => ?_, fun ha => if_pos ha⟩
  by_contra ha
  have ha' : atEnd s = false := Bool.not_eq_true _ ▸ ha
  cases hf : fetch s with
  | error x =>
    rw [step_of_fetch_error ha' hf] at h
    cases x with
    | raise e => exact nomatch (eq_of_raise_fault h).2
    | refuse q => cases h
  | ok p =>
    rw [step_of_fetch_ok (i := p.1) (u := p.2) ha' hf] at h
    obtain ⟨-, e, -, he⟩ := exec_fault h
    cases he

-- Launch (R331)

/-- Status bit by bit at launch: IE, EXL and ERL are 0, KSU is the entry mode, and the rest stays. -/
theorem getLsbD_launchStatus (m : Mode) (st : Word) {k : Nat} (h : k < 64) :
    (launchStatus m st).getLsbD k = if k < 5 then k == 4 && m == .user else st.getLsbD k := by
  have hmask : ∀ i : Fin 64, (~~~0b11111 : Word).getLsbD i = !decide (i.val < 5) := by decide
  have hmode : ∀ i : Fin 64, (0b10000 : Word).getLsbD i = (i.val == 4) := by decide
  cases m with
  | kernel =>
    simp only [launchStatus, BitVec.getLsbD_or, BitVec.getLsbD_and, hmask ⟨k, h⟩]
    by_cases hk : k < 5 <;> simp [hk]
  | user =>
    simp only [launchStatus, BitVec.getLsbD_or, BitVec.getLsbD_and, hmask ⟨k, h⟩, hmode ⟨k, h⟩]
    by_cases hk : k < 5
    · simp [hk]
    · have hne : k ≠ 4 := by omega
      simp [hk, hne]

/-- The state of a launch before the registers it names are written. -/
def launchPlaced (l : Launch) (s : State) : State :=
  { s with
    pc := l.entryPc
    delay := none
    status := launchStatus l.entryMode s.status
    mem := loadText l.params.endian (l.data.foldl (fun m p => m.store p.1.toNat p.2) s.mem) l.text
    text := textSlots l.text
    params := { l.params with endPc := some l.endPc } }

/-- The writes of a list of registers with their values, in order. -/
def writeAll (write : State → BitVec 5 → Word → State) (l : List (BitVec 5 × Word)) (s : State) : State :=
  l.foldl (fun s p => write s p.1 p.2) s

theorem launch_eq (l : Launch) (s : State) :
    launch l s = writeAll writeFpr l.fprs (writeAll writeGpr l.gprs (launchPlaced l s)) := rfl

/-- What every write of the list leaves, the list leaves. -/
theorem writeAll_keeps {α : Sort*} {write : State → BitVec 5 → Word → State} {l : List (BitVec 5 × Word)} {f : State → α}
    (h : ∀ s, ∀ p ∈ l, f (write s p.1 p.2) = f s) (s : State) : f (writeAll write l s) = f s :=
  List.foldlRecOn (motive := fun t => f t = f s) l _ rfl fun t ht p hp => (h t p hp).trans ht

/-- A register that the list names once reads as the value it names. -/
theorem read_writeAll_of_mem {write : State → BitVec 5 → Word → State} {read : State → BitVec 5 → Word}
    {l : List (BitVec 5 × Word)} {r : BitVec 5} {v : Word} (hsame : ∀ s, read (write s r v) r = v)
    (hother : ∀ s q w, q ≠ r → read (write s q w) r = read s r) (hl : (l.map Prod.fst).Nodup) (hr : (r, v) ∈ l) (s : State) :
    read (writeAll write l s) r = v := by
  obtain ⟨l₁, l₂, rfl⟩ := List.append_of_mem hr
  have hnot : ∀ p ∈ l₂, p.1 ≠ r := by
    intro p hp hpr
    rw [List.map_append, List.map_cons] at hl
    have hnamed : p.1 ∈ l₂.map Prod.fst := List.mem_map_of_mem hp
    exact (List.nodup_cons.mp hl.of_append_right).1 (hpr ▸ hnamed)
  rw [writeAll, List.foldl_append, List.foldl_cons]
  exact (writeAll_keeps (f := (read · r)) (fun s p hp => hother s p.1 p.2 (hnot p hp)) _).trans (hsame _)

/-- What no register write touches is that of the state before them. -/
theorem launch_keeps {α : Sort*} {f : State → α} (hg : ∀ s r v, f (writeGpr s r v) = f s)
    (hf : ∀ s r v, f (writeFpr s r v) = f s) (l : Launch) (s : State) : f (launch l s) = f (launchPlaced l s) :=
  (writeAll_keeps (fun s p _ => hf s p.1 p.2) _).trans (writeAll_keeps (fun s p _ => hg s p.1 p.2) _)

theorem launch_status (l : Launch) (s : State) : (launch l s).status = launchStatus l.entryMode s.status :=
  launch_keeps writeGpr_status writeFpr_status l s

theorem getLsbD_status_launch (l : Launch) (s : State) {k : Nat} (h : k < 64) : (launch l s).status.getLsbD k =
    if k < 5 then k == 4 && l.entryMode == .user else s.status.getLsbD k :=
  (congrArg (BitVec.getLsbD · k) (launch_status l s)).trans (getLsbD_launchStatus l.entryMode s.status h)

theorem ksu_launch (l : Launch) (s : State) : ksu (launch l s) = if l.entryMode = .user then 0b10 else 0b00 := by
  refine BitVec.eq_of_getLsbD_eq fun i hi => ?_
  rw [ksu, BitVec.getLsbD_extractLsb', getLsbD_status_launch l s (by omega)]
  interval_cases i <;> cases l.entryMode <;> rfl

theorem mode_launch (l : Launch) (s : State) : mode (launch l s) = some l.entryMode := by
  have hx : exl (launch l s) = false := getLsbD_status_launch l s (by decide)
  have he : erl (launch l s) = false := getLsbD_status_launch l s (by decide)
  have hk := ksu_launch l s
  cases hm : l.entryMode with
  | kernel => exact mode_eq_kernel_iff.mpr (.inr (.inr (by rw [hk, hm]; rfl)))
  | user => exact mode_eq_user_iff.mpr ⟨hx, he, by rw [hk, hm]; rfl⟩

/-- A general register at launch is the one the list of general registers leaves. -/
theorem readGpr_launch (l : Launch) (s : State) (r : Reg) :
    readGpr (launch l s) r = readGpr (writeAll writeGpr l.gprs (launchPlaced l s)) r :=
  writeAll_keeps (f := (readGpr · r)) (fun _ _ _ => rfl) _

/-- A floating-point register is not touched by the writes of the general ones. -/
theorem readFpr_writeAll_gpr (l : List (Reg × Word)) (s : State) (r : FReg) :
    readFpr (writeAll writeGpr l s) r = readFpr s r :=
  writeAll_keeps (f := (readFpr · r)) (fun s p _ => readFpr_congr (writeGpr_fpr s p.1 p.2) r) s

theorem readGpr_writeGpr_other {s : State} {r q : Reg} {v : Word} (h : q ≠ r) : readGpr (writeGpr s q v) r = readGpr s r :=
  (readGpr_writeGpr s q r v).trans (if_neg fun hc => h hc.1.symm)

theorem readFpr_writeFpr_other {s : State} {r q : FReg} {v : Word} (h : q ≠ r) : readFpr (writeFpr s q v) r = readFpr s r :=
  (readFpr_writeFpr s q r v).trans (if_neg h.symm)

theorem writeGpr_gpr_zero (s : State) (r : Reg) (v : Word) : (writeGpr s r v).gpr[0] = s.gpr[0] := by
  unfold writeGpr
  split
  · rfl
  · rename_i hr
    have : r.toNat ≠ 0 := fun h => hr (BitVec.eq_of_toNat_eq (by simpa using h))
    simp [this]

theorem wf_loadText (e : Endian) {m : Memory} (h : m.wf) (text : List (Word × TextItem)) : (loadText e m text).wf := by
  refine List.foldlRecOn text _ h fun m hm p _ => ?_
  split
  · exact Memory.wf_storeBytes hm _ _
  · exact hm

/-- A launch keeps the invariant: it stores bytes at addresses and leaves no slot pending. -/
theorem stateInv_launch {s : State} (h : StateInv s) (l : Launch) : StateInv (launch l s) where
  mem := by
    rw [launch_keeps (f := State.mem) writeGpr_mem writeFpr_mem]
    exact wf_loadText _ (List.foldlRecOn l.data _ h.mem fun m hm p _ => Memory.wf_store hm _ p.2 p.1.isLt) _
  zero := (launch_keeps (f := (·.gpr[0])) writeGpr_gpr_zero (fun _ _ _ => rfl) l s).trans h.zero
  noSlot _ := launch_keeps (f := State.delay) writeGpr_delay writeFpr_delay l s
  slotAfterBranch hd := absurd (launch_keeps (f := State.delay) writeGpr_delay writeFpr_delay l s) hd

/-- Settles O16: the registers are written last, each list leaving what it does not name. -/
theorem launchBuildsTheFirstState : Obligations.LaunchBuildsTheFirstState := by
  intro l s
  refine ⟨launch_keeps (f := State.pc) writeGpr_pc writeFpr_pc l s,
    launch_keeps (f := State.delay) writeGpr_delay writeFpr_delay l s, getLsbD_status_launch l s (by decide),
    getLsbD_status_launch l s (by decide), getLsbD_status_launch l s (by decide), mode_launch l s,
    fun k hk hlt => (getLsbD_status_launch l s hlt).trans (if_neg (Nat.not_lt.mpr hk)),
    launch_keeps (f := State.params) writeGpr_params writeFpr_params l s, fun r hr => ?_, fun r v hr hl hm => ?_, fun r hr => ?_,
    fun r v hl hm => ?_, fun h => stateInv_launch h l⟩
  · exact (readGpr_launch l s r).trans
      (writeAll_keeps (f := (readGpr · r)) (fun _ p hp => readGpr_writeGpr_other (hr p hp)) _)
  · exact (readGpr_launch l s r).trans (read_writeAll_of_mem (read := readGpr)
      (fun s => (readGpr_writeGpr s r r v).trans (if_pos ⟨rfl, hr⟩)) (fun _ _ _ => readGpr_writeGpr_other) hl hm _)
  · exact (writeAll_keeps (f := (readFpr · r)) (fun _ p hp => readFpr_writeFpr_other (hr p hp)) _).trans
      (readFpr_writeAll_gpr _ _ r)
  · exact read_writeAll_of_mem (read := readFpr) (fun s => (readFpr_writeFpr s r r v).trans (if_pos rfl))
      (fun _ _ _ => readFpr_writeFpr_other) hl hm _

-- The delay slot (R196, R335)

/-- The address control goes to after the slot of the jump or branch `i`. -/
def SlotDestination (i : Instr) (s : State) (d : Word) : Prop :=
  jumpDestination i s = some d ∨ (∃ offset, branchCase i s = some (true, offset) ∧ d = takenTarget s offset) ∨
    ∃ offset, branchCase i s = some (false, offset) ∧ d = s.pc + 8

/-- A jump or a branch makes no access, and User mode may execute it. -/
theorem kinds_of_transfer {i : Instr} (hc : controlTransfer i = true) (he : i ≠ .eret) :
    loadOperands i = none ∧ storeOperands i = none ∧ kernelInstr i = false := by
  cases i
  case eret => exact absurd rfl he
  case j | jr | jal | jalr | blez | bltz | bgez | bgtz | beq | bne | bc1t | bc1f => exact ⟨rfl, rfl, rfl⟩
  all_goals cases hc

/-- A jump or a branch raises nothing: Table 60-1 gives it no exception. -/
theorem not_hasCause_of_transfer {i : Instr} {s : State} {e : Exn} (hc : controlTransfer i = true) (he : i ≠ .eret) :
    ¬HasCause i s e := by
  obtain ⟨hl, hs, hk⟩ := kinds_of_transfer hc he
  intro h
  cases e with
  | addressErrorLoad a =>
    obtain ⟨_, _, _, h, -⟩ := h
    rw [hl] at h; cases h
  | addressErrorStore a =>
    obtain ⟨_, _, _, h, -⟩ := h
    rw [hs] at h; cases h
  | busErrorData a =>
    obtain ⟨_, _, _, h | h, -⟩ := h
    · rw [hl] at h; cases h
    · rw [hs] at h; cases h
  | trap =>
    obtain ⟨code, rfl⟩ := h
    cases hc
  | coprocessorUnusable n =>
    obtain ⟨-, h, -⟩ := h
    rw [hk] at h; cases h
  | busErrorFetch a | reservedInstruction => exact h

theorem TrapEntered.exl {e : Exn} {s t : State} (h : TrapEntered e s t) : exl t = true :=
  h.status 1 (by decide)

/-- A jump or a branch that answers a next state leaves EXL, and on a machine with delay slots its destination is pending. -/
theorem transfer_pends {i : Instr} {s t : State} (hs : s.params.delaySlot = true) (hx : exl s = false)
    (hc : controlTransfer i = true) (he : i ≠ .eret) (h : exec i s = .next t) :
    exl t = false ∧ t.pc = s.pc + 4 ∧ ∃ d, t.delay = some d ∧ SlotDestination i s d := by
  have hxt : exl t = false := by
    obtain ⟨-, e, cause, -⟩ | hn := exceptionsHaveTheirCauses.2 i s t h
    · exact absurd cause (not_hasCause_of_transfer hc he)
    · obtain ⟨-, -, hk⟩ := kinds_of_transfer hc he
      refine Bool.eq_false_iff.mpr fun ht => ?_
      rw [hn.exl (writesC0_of_user hk) ht] at hx
      cases hx
  refine ⟨hxt, ?_⟩
  obtain ⟨e, hent⟩ | ⟨heret, -⟩ | ⟨-, -, d, hd, ht⟩ | ⟨-, -, taken, offset, hb, htaken, hnot⟩ | ⟨hn, -⟩ :=
    nextPcOfEveryInstruction i s t h
  · rw [hent.exl] at hxt; cases hxt
  · exact absurd heret he
  · obtain ⟨hpc, hdelay⟩ := ht.slot hs
    exact ⟨hpc, d, hdelay, .inl hd⟩
  · cases taken with
    | true =>
      obtain ⟨hpc, hdelay⟩ := (htaken rfl).slot hs
      exact ⟨hpc, _, hdelay, .inr (.inl ⟨offset, hb, rfl⟩)⟩
    | false =>
      obtain ⟨hpc, hdelay⟩ := (hnot rfl).slot hs
      exact ⟨hpc, _, hdelay, .inr (.inr ⟨offset, hb, rfl⟩)⟩
  · rw [hc] at hn; cases hn

/-- An instruction in a delay slot goes to the pending destination, or its exception is charged to the jump or branch before. -/
theorem slot_next {j : Instr} {t u : State} {d : Word} (hd : t.delay = some d) (hx : exl t = false) (h : exec j t = .next u) :
    u.delay = none ∧ (u.pc = d ∨ (u.epc = t.pc - 4 ∧ u.cause.bd = true ∧ u.pc = t.params.excVector)) := by
  have hslot : t.delay ≠ none := by rw [hd]; nofun
  obtain ⟨e, hent⟩ | ⟨-, -, hn, -⟩ | ⟨-, hn, -⟩ | ⟨-, hn, -⟩ | ⟨-, ho⟩ := nextPcOfEveryInstruction j t u h
  · obtain ⟨hepc, hbd⟩ := hent.epcAndBdInSlot hx hslot
    exact ⟨hent.delay, .inr ⟨hepc, hbd, hent.pc⟩⟩
  · exact absurd hn hslot
  · exact absurd hn hslot
  · exact absurd hn hslot
  · exact ⟨ho.delay, .inl (by rw [ho.pc, hd]; rfl)⟩

/-- Settles O52: the jump or branch leaves its destination pending, and the slot goes there or raises. -/
theorem delaySlotRunsBeforeTheTarget : Obligations.DelaySlotRunsBeforeTheTarget := by
  intro i j s t u hs hx hc he hi hj
  obtain ⟨hxt, hpc, d, hd, hdest⟩ := transfer_pends hs hx hc he hi
  obtain ⟨hdelay, hslot⟩ := slot_next hd hxt hj
  refine ⟨hpc, hdelay, hslot.imp (fun hu => ?_) fun ⟨hepc, hbd, hvec⟩ => ⟨?_, hbd, ?_⟩⟩
  · rw [← hu] at hdest
    exact hdest
  · rw [hepc, hpc, BitVec.add_sub_cancel]
  · rw [hvec, (exec_stepKeeps hi).params]

end Sys2Proof.Machine
end
